-- ==== Sys2Proof/Word.lean ====
section
/-! DEFINITION. The words of the SSD1306 encoder block: bytes, 32-bit operands, and the operand and configuration
types of spec/00_scope.md (R7 to R14, R18), spec/10_state.md (R23, R27) and spec/30_encoding.md (R72, R73). -/

namespace Sys2Proof

/-- A byte: 8 bits, numbered 7 down to 0 (R14). -/
abbrev Byte := BitVec 8

/-- A signed 32-bit operand in two's complement: coordinates, page numbers, offsets, row counts (R27, R72). -/
abbrev I32 := BitVec 32

/-- The SSD1306 frame-interval code, 3 bits, never interpreted by the block (R72, R207). -/
abbrev Freq := BitVec 3

/-- A font handle, passed to `rasterize` and to nothing else (R13, R72). -/
abbrev Font := Nat

/-- A host of the block. The block itself keeps no identifiers (R258); the model numbers the hosts. -/
abbrev HostId := Nat

/-- The overlay policy (R73, R130). Its codes are 0, 1, 2, 3 in this order. -/
inductive Overlay where
  | full
  | onPixels
  | offPixels
  | none
deriving DecidableEq, Repr, Inhabited

/-- Horizontal scroll direction (R72): LEFT = 0, RIGHT = 1. -/
inductive HDir where
  | left
  | right
deriving DecidableEq, Repr, Inhabited

/-- Vertical scroll direction (R72): UP = 0, DOWN = 1. -/
inductive VDir where
  | up
  | down
deriving DecidableEq, Repr, Inhabited

/-- An RGB888 pixel (R18). -/
structure Rgb where
  r : Byte
  g : Byte
  b : Byte
deriving DecidableEq, Repr, Inhabited

/-- An RGB888 image, row by row: pixel (x, y) is entry `y * width + x` (R72). -/
structure Image where
  width  : Nat
  height : Nat
  pixels : List Rgb
deriving DecidableEq, Repr, Inhabited

/-- The level of a digital line: the reset pin (R34) or the SPI D/C select line (R97). -/
inductive Level where
  | low
  | high
deriving DecidableEq, Repr, Inhabited

/-- The three supported display sizes (R7). Any other size has no block (R84, R244). -/
inductive Dims where
  | w128h64
  | w128h32
  | w96h16
deriving DecidableEq, Repr, Inhabited

/-- The power configuration (R8): INTERNAL is the charge pump, EXTERNAL an external VCC. -/
inductive Vcc where
  | internal
  | external
deriving DecidableEq, Repr, Inhabited

/-- The transport variant (R9). It decides the framing of R96 and R97 and nothing else. -/
inductive Bus where
  | i2c
  | spi
deriving DecidableEq, Repr, Inhabited

/-- The configuration register CFG, by field (R23). -/
structure Cfg where
  dims        : Dims
  vcc         : Vcc
  bus         : Bus
  hasResetPin : Bool
deriving DecidableEq, Repr, Inhabited

end Sys2Proof
end

