-- ==== Sys2Proof/Config.lean ====
section
/-! DEFINITION. What the spec leaves open and the model takes as a free value (spec/00_scope.md R11 to R13;
spec/92_eei_decisions.md rows marked OPEN). None of these constants has a body: a statement that is proved about
the machine holds whatever they are. -/

namespace Sys2Proof

/-- The two values of the transport outcome draw (R252). -/
inductive Transport where
  | delivered
  | failed
deriving DecidableEq, Repr, Inhabited

/-- `transportOutcome` (R11, R252, D23): whether the frame of draw number `n` was delivered.
Free value, assumption 6. -/
opaque Config.transportOutcome : Nat → Transport

/-- Whether the blocking wait of draw number `n` was interrupted (R246, U14). Free value, assumption 7. -/
opaque Config.waitInterrupted : Nat → Bool

/-- Which of the frames that other hosts have waiting takes the bus at the frame boundary of draw number `n`,
if any does (R60, U16). Free value, assumption 8. -/
opaque Config.interleave : Nat → Option Nat

/-- The pixel (x, y) of a non-uniform image resampled to w × h (R12, U7).
Free value, assumption 11: `Config.sample img w h x y`. -/
opaque Config.sample : Image → Nat → Nat → Nat → Nat → Rgb

/-- The measured bounding box (mw, mh) of a string in a font: mw ≥ 0 and mh ≥ 0 (R13, U8). Free value,
assumption 12. -/
opaque Config.textBox : Font → String → Nat × Nat

/-- The pixel (x, y) of a rasterised string (R13, U8). Free value, assumption 12. -/
opaque Config.textPixel : Font → String → Nat → Nat → Rgb

/-- `diagChecksPageRange` (R11, R204, D15): whether SCROLL_DIAGONAL also checks its page range. Assumption 13. -/
opaque Config.diagChecksPageRange : Bool

/-- `defaultScrollFreq` (R11, D16). Assumption 14. -/
opaque Config.defaultScrollFreq : Freq

/-- `defaultOverlay` (R11, D16). Assumption 14. -/
opaque Config.defaultOverlay : Overlay

/-- `defaultFont` (R11, D16). Assumption 14. -/
opaque Config.defaultFont : Font

end Sys2Proof
end

