-- ==== Sys2Proof/Syntax.lean ====
section
/-! DEFINITION. The instructions: one constructor per row of spec/opcode_table.json. The first fourteen are the host
operations (spec/30_encoding.md R74), their operands in the order mode byte, then operand record. The other
twenty-six, named `cmd…`, are the SSD1306 command frames of the Command Encoder (R78; R150 to R175), their operands the
bytes and fields that the frame carries. SET_CONTRAST names a row of each kind. -/

namespace Sys2Proof

inductive Instr where
  /-- BEGIN, tag 0x01 (R177). -/
  | begin
  /-- CLEAR, tag 0x02 (R110). -/
  | clear
  /-- SYNC, tag 0x03 (R118). -/
  | sync
  /-- SET_PIXEL, tag 0x04 (R113). -/
  | setPixel (on : Bool) (x y : I32)
  /-- DRAW_IMAGE, tag 0x05 (R135). -/
  | drawImage (ov : Overlay) (img : Image) (x0 y0 x1 y1 : I32)
  /-- DRAW_TEXT, tag 0x06 (R140). -/
  | drawText (ov : Overlay) (text : String) (font : Font) (x0 y0 : I32)
  /-- SET_CONTRAST, tag 0x07 (R220): the factor is an exact rational. -/
  | setContrast (factor : Rat)
  /-- DIM, tag 0x08 (R224). -/
  | dim (on : Bool)
  /-- INVERT, tag 0x09 (R225). -/
  | invert (on : Bool)
  /-- SCROLL_HORIZONTAL, tag 0x0A (R201): start page `sp`, end page `ep`. -/
  | scrollHorizontal (hdir : HDir) (freq : Freq) (sp ep : I32)
  /-- SCROLL_VERTICAL, tag 0x0B (R205). -/
  | scrollVertical (vdir : VDir) (freq : Freq)
  /-- SCROLL_DIAGONAL, tag 0x0C (R203). -/
  | scrollDiagonal (hdir : HDir) (freq : Freq) (sp ep voff fixed rows : I32)
  /-- STOP_SCROLL, tag 0x0D (R206). -/
  | stopScroll
  /-- STOP, tag 0x0E (R230). -/
  | stop
  /-- DISPLAY_OFF, 0xAE (R150). -/
  | cmdDisplayOff
  /-- DISPLAY_ON, 0xAF (R151). -/
  | cmdDisplayOn
  /-- SET_DISPLAY_CLOCK_DIV, 0xD5 (R152). -/
  | cmdSetDisplayClockDiv (v : Byte)
  /-- SET_MULTIPLEX_RATIO, 0xA8 (R153). -/
  | cmdSetMultiplexRatio (v : Byte)
  /-- SET_DISPLAY_OFFSET, 0xD3 (R154). -/
  | cmdSetDisplayOffset (v : Byte)
  /-- SET_START_LINE, 0x40 to 0x7F (R155): the start line is in the opcode. -/
  | cmdSetStartLine (l : BitVec 6)
  /-- SET_CHARGE_PUMP, 0x8D (R156). -/
  | cmdSetChargePump (en : Bool)
  /-- SET_MEMORY_ADDRESSING_MODE, 0x20 (R157). -/
  | cmdSetMemoryAddressingMode (m : Byte)
  /-- SET_SEGMENT_REMAP, 0xA0 and 0xA1 (R158): the remap bit is in the opcode. -/
  | cmdSetSegmentRemap (r : BitVec 1)
  /-- SET_COM_SCAN_DIRECTION, 0xC0 and 0xC8 (R159): the direction bit is in the opcode. -/
  | cmdSetComScanDirection (d : BitVec 1)
  /-- SET_COM_PINS_CONFIGURATION, 0xDA (R160). -/
  | cmdSetComPinsConfiguration (v : Byte)
  /-- SET_CONTRAST, 0x81 (R161): the command frame, not the host operation. -/
  | cmdSetContrast (c : Byte)
  /-- SET_PRECHARGE_PERIOD, 0xD9 (R162). -/
  | cmdSetPrechargePeriod (v : Byte)
  /-- SET_VCOMH_DESELECT_LEVEL, 0xDB (R163). -/
  | cmdSetVcomhDeselectLevel (v : Byte)
  /-- RESUME_RAM_CONTENT_DISPLAY, 0xA4 (R164). -/
  | cmdResumeRamContentDisplay
  /-- SET_NORMAL_DISPLAY, 0xA6 (R165). -/
  | cmdSetNormalDisplay
  /-- SET_INVERSE_DISPLAY, 0xA7 (R166). -/
  | cmdSetInverseDisplay
  /-- SET_COLUMN_ADDRESS, 0x21 (R167): first and last column. -/
  | cmdSetColumnAddress (first last : Byte)
  /-- SET_PAGE_ADDRESS, 0x22 (R168): first and last page. -/
  | cmdSetPageAddress (first last : Byte)
  /-- RIGHT_HORIZONTAL_SCROLL, 0x26 (R169). -/
  | cmdRightHorizontalScroll (sp : Byte) (f : Freq) (ep : Byte)
  /-- LEFT_HORIZONTAL_SCROLL, 0x27 (R170). -/
  | cmdLeftHorizontalScroll (sp : Byte) (f : Freq) (ep : Byte)
  /-- VERTICAL_AND_RIGHT_HORIZONTAL_SCROLL, 0x29 (R171). -/
  | cmdVerticalAndRightHorizontalScroll (sp : Byte) (f : Freq) (ep vo : Byte)
  /-- VERTICAL_AND_LEFT_HORIZONTAL_SCROLL, 0x2A (R172). -/
  | cmdVerticalAndLeftHorizontalScroll (sp : Byte) (f : Freq) (ep vo : Byte)
  /-- SET_VERTICAL_SCROLL_AREA, 0xA3 (R173): fixed rows, scroll rows. -/
  | cmdSetVerticalScrollArea (fr sr : Byte)
  /-- SCROLL_DEACTIVATE, 0x2E (R174). -/
  | cmdScrollDeactivate
  /-- SCROLL_ACTIVATE, 0x2F (R175). -/
  | cmdScrollActivate
deriving DecidableEq, Repr

end Sys2Proof
end

