-- ==== Sys2Proof/WellFormed.lean ====
section
/-! DEFINITION. Which instructions are well formed. The operand types hold every bound of spec/30_encoding.md R72 but
one: an image has sw ≥ 1, sh ≥ 1 and as many pixels as its size says. -/

namespace Sys2Proof

/-- R72: "an RGB888 image of width sw ≥ 1 and height sh ≥ 1". -/
def Image.wellFormed (img : Image) : Bool :=
  decide (1 ≤ img.width) && decide (1 ≤ img.height) && decide (img.pixels.length = img.width * img.height)

/-- Every operand is a value of its type in R72. -/
def Instr.wellFormed : Instr → Bool
  | .drawImage _ img _ _ _ _ => img.wellFormed
  | .begin | .clear | .sync | .setPixel _ _ _ | .drawText _ _ _ _ _ | .setContrast _ | .dim _ | .invert _
  | .scrollHorizontal _ _ _ _ | .scrollVertical _ _ | .scrollDiagonal _ _ _ _ _ _ _ | .stopScroll | .stop
  | .cmdDisplayOff | .cmdDisplayOn | .cmdSetDisplayClockDiv _ | .cmdSetMultiplexRatio _ | .cmdSetDisplayOffset _
  | .cmdSetStartLine _ | .cmdSetChargePump _ | .cmdSetMemoryAddressingMode _ | .cmdSetSegmentRemap _
  | .cmdSetComScanDirection _ | .cmdSetComPinsConfiguration _ | .cmdSetContrast _ | .cmdSetPrechargePeriod _
  | .cmdSetVcomhDeselectLevel _ | .cmdResumeRamContentDisplay | .cmdSetNormalDisplay | .cmdSetInverseDisplay
  | .cmdSetColumnAddress _ _ | .cmdSetPageAddress _ _ | .cmdRightHorizontalScroll _ _ _
  | .cmdLeftHorizontalScroll _ _ _ | .cmdVerticalAndRightHorizontalScroll _ _ _ _
  | .cmdVerticalAndLeftHorizontalScroll _ _ _ _ | .cmdSetVerticalScrollArea _ _ | .cmdScrollDeactivate
  | .cmdScrollActivate => true

end Sys2Proof
end

