-- ==== Sys2Proof/Decode.lean ====
section
/-! DEFINITION. The two encoded interfaces of the block (spec/30_encoding.md R70). Input: the host operation, a tag, a
mode byte and an operand record (R71 to R74, R83). Output: the SSD1306 command frame, an opcode byte and its
parameters (R76 to R81; spec/42_command_encoder.md R150 to R175). The decoders come first, then the encoders. -/

namespace Sys2Proof

/-! ## Slots and refusals -/

/-- The content of a factor slot. Only an exact rational is a value of the operand's type (R72, R220). -/
inductive FactorSlot where
  | ratio (q : Rat)
  | nan
  | posInfinity
  | negInfinity
deriving DecidableEq, Repr

/-- One element of a host operation: a byte, or a reference operand, which is "an opaque handle slot" (R71).
`imageAlpha` is an image whose source carries an alpha channel (R112). -/
inductive Slot where
  | byte (b : Byte)
  | image (img : Image)
  | imageAlpha (img : Image) (alpha : List Byte)
  | text (t : String)
  | font (f : Font)
  | factor (f : FactorSlot)
deriving DecidableEq, Repr

/-- The two encoded interfaces (R70): the host's, and the Command Encoder's (assumption 3). -/
inductive Port where
  | host
  | encoder
deriving DecidableEq, Repr

/-- Why a word spells no instruction. -/
inductive DecodeError where
  /-- Nothing was handed over. -/
  | empty
  /-- Tag 0x00 or 0x0F to 0xFF (R83). -/
  | reservedTag (tag : Byte)
  /-- A nonzero mode-byte bit that R74 does not name (R83). -/
  | reservedModeBits (mode : Byte)
  /-- More than the record holds: a mode byte on a tag that has none (R83), or slots after the record. -/
  | unexpectedOperand
  /-- Less than the record holds, or a slot of another kind (R71). -/
  | missingOperand
  /-- A factor that is NaN or infinite (R220, R243). -/
  | factorNotFinite
  /-- An image that is no RGB888 image of at least 1 × 1 (R72). -/
  | malformedImage
  /-- A first byte that is the opcode of none of the 26 commands (R85). -/
  | unknownOpcode (op : Byte)
  /-- A frame whose length is not the one its opcode gives (R79). -/
  | wrongFrameLength (op : Byte)
deriving DecidableEq, Repr

/-! ## Host operations: enumeration codes and operand forms (R72, R73) -/

def overlayOf (code : BitVec 2) : Overlay :=
  match code.toNat with
  | 0 => .full
  | 1 => .onPixels
  | 2 => .offPixels
  | _ => .none

def overlayCode : Overlay → BitVec 2
  | .full => 0
  | .onPixels => 1
  | .offPixels => 2
  | .none => 3

def hdirOf (bit : Bool) : HDir := if bit then .right else .left

def hdirCode : HDir → Bool
  | .left => false
  | .right => true

def vdirOf (bit : Bool) : VDir := if bit then .down else .up

def vdirCode : VDir → Bool
  | .up => false
  | .down => true

/-- An `i32` operand from its four bytes, the least significant first (R71). -/
def i32OfBytes (b0 b1 b2 b3 : Byte) : I32 := b3 ++ b2 ++ b1 ++ b0

/-- The `i32` operand at the head of a record: 4 bytes, little-endian two's complement (R71). -/
def takeI32 : List Slot → Except DecodeError (I32 × List Slot)
  | .byte b0 :: .byte b1 :: .byte b2 :: .byte b3 :: rest => .ok (i32OfBytes b0 b1 b2 b3, rest)
  | _ => .error .missingOperand

/-- The mode byte. Only its low `bits` bits are named by R74; the others are reserved and must be 0 (R71, R83). -/
def takeMode (bits : Nat) : List Slot → Except DecodeError (Byte × List Slot)
  | .byte m :: rest => if m.toNat < 2 ^ bits then .ok (m, rest) else .error (.reservedModeBits m)
  | _ => .error .missingOperand

/-- The `img` operand. An alpha channel is dropped: only the three colour channels are read (R112). -/
def takeImage : List Slot → Except DecodeError (Image × List Slot)
  | .image img :: rest | .imageAlpha img _ :: rest =>
    if img.wellFormed then .ok (img, rest) else .error .malformedImage
  | _ => .error .missingOperand

def takeText : List Slot → Except DecodeError (String × List Slot)
  | .text t :: rest => .ok (t, rest)
  | _ => .error .missingOperand

def takeFont : List Slot → Except DecodeError (Font × List Slot)
  | .font f :: rest => .ok (f, rest)
  | _ => .error .missingOperand

/-- The `factor` operand: NaN and infinities "are refused at the boundary" (R220). -/
def takeFactor : List Slot → Except DecodeError (Rat × List Slot)
  | .factor (.ratio q) :: rest => .ok (q, rest)
  | .factor _ :: _ => .error .factorNotFinite
  | _ => .error .missingOperand

/-- The record must be used up (R83: "a mode byte present on a tag that has none"). -/
def finish (i : Instr) : List Slot → Except DecodeError Instr
  | [] => .ok i
  | _ => .error .unexpectedOperand

def decodeSetPixel (r : List Slot) : Except DecodeError Instr := do
  let (m, r) ← takeMode 1 r
  let (x, r) ← takeI32 r
  let (y, r) ← takeI32 r
  finish (.setPixel (m.getLsbD 0) x y) r

def decodeDrawImage (r : List Slot) : Except DecodeError Instr := do
  let (m, r) ← takeMode 2 r
  let (img, r) ← takeImage r
  let (x0, r) ← takeI32 r
  let (y0, r) ← takeI32 r
  let (x1, r) ← takeI32 r
  let (y1, r) ← takeI32 r
  finish (.drawImage (overlayOf (m.extractLsb' 0 2)) img x0 y0 x1 y1) r

def decodeDrawText (r : List Slot) : Except DecodeError Instr := do
  let (m, r) ← takeMode 2 r
  let (t, r) ← takeText r
  let (f, r) ← takeFont r
  let (x0, r) ← takeI32 r
  let (y0, r) ← takeI32 r
  finish (.drawText (overlayOf (m.extractLsb' 0 2)) t f x0 y0) r

def decodeSetContrast (r : List Slot) : Except DecodeError Instr := do
  let (q, r) ← takeFactor r
  finish (.setContrast q) r

def decodeDim (r : List Slot) : Except DecodeError Instr := do
  let (m, r) ← takeMode 1 r
  finish (.dim (m.getLsbD 0)) r

def decodeInvert (r : List Slot) : Except DecodeError Instr := do
  let (m, r) ← takeMode 1 r
  finish (.invert (m.getLsbD 0)) r

def decodeScrollHorizontal (r : List Slot) : Except DecodeError Instr := do
  let (m, r) ← takeMode 4 r
  let (sp, r) ← takeI32 r
  let (ep, r) ← takeI32 r
  finish (.scrollHorizontal (hdirOf (m.getLsbD 0)) (m.extractLsb' 1 3) sp ep) r

def decodeScrollVertical (r : List Slot) : Except DecodeError Instr := do
  let (m, r) ← takeMode 4 r
  finish (.scrollVertical (vdirOf (m.getLsbD 0)) (m.extractLsb' 1 3)) r

def decodeScrollDiagonal (r : List Slot) : Except DecodeError Instr := do
  let (m, r) ← takeMode 4 r
  let (sp, r) ← takeI32 r
  let (ep, r) ← takeI32 r
  let (voff, r) ← takeI32 r
  let (fixed, r) ← takeI32 r
  let (rows, r) ← takeI32 r
  finish (.scrollDiagonal (hdirOf (m.getLsbD 0)) (m.extractLsb' 1 3) sp ep voff fixed rows) r

/-- The host operation table of R74, by tag. -/
def decodeTag (tag : Byte) (r : List Slot) : Except DecodeError Instr :=
  match tag.toNat with
  | 0x01 => finish .begin r
  | 0x02 => finish .clear r
  | 0x03 => finish .sync r
  | 0x04 => decodeSetPixel r
  | 0x05 => decodeDrawImage r
  | 0x06 => decodeDrawText r
  | 0x07 => decodeSetContrast r
  | 0x08 => decodeDim r
  | 0x09 => decodeInvert r
  | 0x0A => decodeScrollHorizontal r
  | 0x0B => decodeScrollVertical r
  | 0x0C => decodeScrollDiagonal r
  | 0x0D => finish .stopScroll r
  | 0x0E => finish .stop r
  | _ => .error (.reservedTag tag)

/-- R71: byte 0 is the tag and selects the operation. -/
def decodeHost : List Slot → Except DecodeError Instr
  | .byte tag :: r => decodeTag tag r
  | [] => .error .empty
  | _ => .error .missingOperand

/-! ## SSD1306 command frames: the opcode table (R77, R78) -/

/-- The 26 commands the block emits (R78). -/
inductive CommandName where
  | displayOff
  | displayOn
  | setDisplayClockDiv
  | setMultiplexRatio
  | setDisplayOffset
  | setStartLine
  | setChargePump
  | setMemoryAddressingMode
  | setSegmentRemap
  | setComScanDirection
  | setComPinsConfiguration
  | setContrast
  | setPrechargePeriod
  | setVcomhDeselectLevel
  | resumeRamContentDisplay
  | setNormalDisplay
  | setInverseDisplay
  | setColumnAddress
  | setPageAddress
  | rightHorizontalScroll
  | leftHorizontalScroll
  | verticalAndRightHorizontalScroll
  | verticalAndLeftHorizontalScroll
  | setVerticalScrollArea
  | scrollDeactivate
  | scrollActivate
deriving DecidableEq, Repr

/-- R78's rows, in its order. -/
def commandNames : List CommandName :=
  [.displayOff, .displayOn, .setDisplayClockDiv, .setMultiplexRatio, .setDisplayOffset, .setStartLine,
   .setChargePump, .setMemoryAddressingMode, .setSegmentRemap, .setComScanDirection, .setComPinsConfiguration,
   .setContrast, .setPrechargePeriod]
  ++ [.setVcomhDeselectLevel, .resumeRamContentDisplay, .setNormalDisplay, .setInverseDisplay, .setColumnAddress,
   .setPageAddress, .rightHorizontalScroll, .leftHorizontalScroll, .verticalAndRightHorizontalScroll,
   .verticalAndLeftHorizontalScroll, .setVerticalScrollArea, .scrollDeactivate, .scrollActivate]

/-- The named constant table of R77: the opcode byte of each command with its operand bits, if it has any, 0.
Every value is the spec's, from general knowledge (assumption 18). -/
def opcode : CommandName → Byte
  | .displayOff => 0xAE
  | .displayOn => 0xAF
  | .setDisplayClockDiv => 0xD5
  | .setMultiplexRatio => 0xA8
  | .setDisplayOffset => 0xD3
  | .setStartLine => 0x40
  | .setChargePump => 0x8D
  | .setMemoryAddressingMode => 0x20
  | .setSegmentRemap => 0xA0
  | .setComScanDirection => 0xC0
  | .setComPinsConfiguration => 0xDA
  | .setContrast => 0x81
  | .setPrechargePeriod => 0xD9
  | .setVcomhDeselectLevel => 0xDB
  | .resumeRamContentDisplay => 0xA4
  | .setNormalDisplay => 0xA6
  | .setInverseDisplay => 0xA7
  | .setColumnAddress => 0x21
  | .setPageAddress => 0x22
  | .rightHorizontalScroll => 0x26
  | .leftHorizontalScroll => 0x27
  | .verticalAndRightHorizontalScroll => 0x29
  | .verticalAndLeftHorizontalScroll => 0x2A
  | .setVerticalScrollArea => 0xA3
  | .scrollDeactivate => 0x2E
  | .scrollActivate => 0x2F

/-- The opcode bits that are fixed (R78's column "opcode bit form"; the mask of spec/opcode_table.json). -/
def opcodeMask : CommandName → Byte
  | .setStartLine => 0xC0
  | .setSegmentRemap => 0xFE
  | .setComScanDirection => 0xF7
  | .displayOff | .displayOn | .setDisplayClockDiv | .setMultiplexRatio | .setDisplayOffset | .setChargePump
  | .setMemoryAddressingMode | .setComPinsConfiguration | .setContrast | .setPrechargePeriod
  | .setVcomhDeselectLevel | .resumeRamContentDisplay | .setNormalDisplay | .setInverseDisplay | .setColumnAddress
  | .setPageAddress | .rightHorizontalScroll | .leftHorizontalScroll | .verticalAndRightHorizontalScroll
  | .verticalAndLeftHorizontalScroll | .setVerticalScrollArea | .scrollDeactivate | .scrollActivate => 0xFF

/-- The length of a frame in bytes, opcode included (R78's column "length", R79). -/
def commandLength : CommandName → Nat
  | .displayOff | .displayOn | .setStartLine | .setSegmentRemap | .setComScanDirection | .resumeRamContentDisplay
  | .setNormalDisplay | .setInverseDisplay | .scrollDeactivate | .scrollActivate => 1
  | .setDisplayClockDiv | .setMultiplexRatio | .setDisplayOffset | .setChargePump | .setMemoryAddressingMode
  | .setComPinsConfiguration | .setContrast | .setPrechargePeriod | .setVcomhDeselectLevel => 2
  | .setColumnAddress | .setPageAddress | .setVerticalScrollArea => 3
  | .verticalAndRightHorizontalScroll | .verticalAndLeftHorizontalScroll => 6
  | .rightHorizontalScroll | .leftHorizontalScroll => 7

/-- The command an opcode byte belongs to, of the 26. -/
def commandOf (op : Byte) : Option CommandName :=
  commandNames.find? fun n => decide (op &&& opcodeMask n = opcode n)

/-- R79: the opcode byte alone determines the length. -/
def frameLength (op : Byte) : Option Nat := (commandOf op).map commandLength

/-- A frame with no parameter byte. -/
def params0 (i : Instr) : List Byte → Option Instr
  | [] => some i
  | _ :: _ => none

/-- A frame with one parameter byte. -/
def params1 (f : Byte → Instr) : List Byte → Option Instr
  | [a] => some (f a)
  | _ => none

/-- A frame with two parameter bytes. -/
def params2 (f : Byte → Byte → Instr) : List Byte → Option Instr
  | [a, b] => some (f a b)
  | _ => none

/-- Horizontal scroll parameters (R81): dummy, start page, frequency code, end page, dummy, dummy. The three dummies
are not looked at (assumption 4). -/
def paramsHorizontal (i : Byte → Freq → Byte → Instr) : List Byte → Option Instr
  | [_, sp, f, ep, _, _] => some (i sp (f.extractLsb' 0 3) ep)
  | _ => none

/-- Diagonal scroll parameters (R81): dummy, start page, frequency, end page, vertical offset. -/
def paramsDiagonal (i : Byte → Freq → Byte → Byte → Instr) : List Byte → Option Instr
  | [_, sp, f, ep, vo] => some (i sp (f.extractLsb' 0 3) ep vo)
  | _ => none

/-- The instruction that an opcode byte `op` of command `n` and the bytes after it spell; `none` if they are too few
or too many. Dummy bytes and the bits outside a parameter's named field are not looked at (assumption 4). -/
def decodeParams (op : Byte) (n : CommandName) (ps : List Byte) : Option Instr :=
  match n with
  | .displayOff => params0 .cmdDisplayOff ps
  | .displayOn => params0 .cmdDisplayOn ps
  | .setDisplayClockDiv => params1 .cmdSetDisplayClockDiv ps
  | .setMultiplexRatio => params1 .cmdSetMultiplexRatio ps
  | .setDisplayOffset => params1 .cmdSetDisplayOffset ps
  | .setStartLine => params0 (.cmdSetStartLine (op.extractLsb' 0 6)) ps
  | .setChargePump => params1 (fun v => .cmdSetChargePump (v.getLsbD 2)) ps
  | .setMemoryAddressingMode => params1 .cmdSetMemoryAddressingMode ps
  | .setSegmentRemap => params0 (.cmdSetSegmentRemap (op.extractLsb' 0 1)) ps
  | .setComScanDirection => params0 (.cmdSetComScanDirection (op.extractLsb' 3 1)) ps
  | .setComPinsConfiguration => params1 .cmdSetComPinsConfiguration ps
  | .setContrast => params1 .cmdSetContrast ps
  | .setPrechargePeriod => params1 .cmdSetPrechargePeriod ps
  | .setVcomhDeselectLevel => params1 .cmdSetVcomhDeselectLevel ps
  | .resumeRamContentDisplay => params0 .cmdResumeRamContentDisplay ps
  | .setNormalDisplay => params0 .cmdSetNormalDisplay ps
  | .setInverseDisplay => params0 .cmdSetInverseDisplay ps
  | .setColumnAddress => params2 .cmdSetColumnAddress ps
  | .setPageAddress => params2 .cmdSetPageAddress ps
  | .rightHorizontalScroll => paramsHorizontal .cmdRightHorizontalScroll ps
  | .leftHorizontalScroll => paramsHorizontal .cmdLeftHorizontalScroll ps
  | .verticalAndRightHorizontalScroll => paramsDiagonal .cmdVerticalAndRightHorizontalScroll ps
  | .verticalAndLeftHorizontalScroll => paramsDiagonal .cmdVerticalAndLeftHorizontalScroll ps
  | .setVerticalScrollArea => params2 .cmdSetVerticalScrollArea ps
  | .scrollDeactivate => params0 .cmdScrollDeactivate ps
  | .scrollActivate => params0 .cmdScrollActivate ps

/-- The command a frame spells (R76, R79). -/
def decodeCommand : List Byte → Except DecodeError Instr
  | [] => .error .empty
  | op :: ps =>
    match commandOf op with
    | none => .error (.unknownOpcode op)
    | some n =>
      match decodeParams op n ps with
      | some i => .ok i
      | none => .error (.wrongFrameLength op)

/-- The bytes of a word that has no reference operand. -/
def slotBytes : List Slot → Option (List Byte)
  | [] => some []
  | .byte b :: rest => (slotBytes rest).map (b :: ·)
  | _ => none

/-- The instruction that a word spells on one of the two interfaces. -/
def decode : Port → List Slot → Except DecodeError Instr
  | .host, ws => decodeHost ws
  | .encoder, ws =>
    match slotBytes ws with
    | some bs => decodeCommand bs
    | none => .error .missingOperand

/-! ## The encoding functions of the 26 commands (R150 to R175) -/

/-- `zext8` (R14): a field of fewer than 8 bits as a byte. -/
def zext8 {w : Nat} (v : BitVec w) : Byte := v.setWidth 8

/-- `low8` of an `i32` operand (R14, R80). -/
def low8 (v : I32) : Byte := v.setWidth 8

/-- `low8` of a natural number (R14). -/
def low8Nat (n : Nat) : Byte := BitVec.ofNat 8 n

def encDisplayOff : List Byte := [opcode .displayOff]
def encDisplayOn : List Byte := [opcode .displayOn]
def encSetDisplayClockDiv (v : Byte) : List Byte := [opcode .setDisplayClockDiv, v]
def encSetMultiplexRatio (v : Byte) : List Byte := [opcode .setMultiplexRatio, v]
def encSetDisplayOffset (v : Byte) : List Byte := [opcode .setDisplayOffset, v]
/-- R155: `[0x40 | l]`. -/
def encSetStartLine (l : BitVec 6) : List Byte := [opcode .setStartLine ||| zext8 l]
/-- R156: `[0x8D, en ? 0x14 : 0x10]`. -/
def encSetChargePump (en : Bool) : List Byte := [opcode .setChargePump, if en then 0x14 else 0x10]
def encSetMemoryAddressingMode (m : Byte) : List Byte := [opcode .setMemoryAddressingMode, m]
/-- R158: `[0xA0 | r]`. -/
def encSetSegmentRemap (r : BitVec 1) : List Byte := [opcode .setSegmentRemap ||| zext8 r]
/-- R159: `[0xC0 | (d << 3)]`. -/
def encSetComScanDirection (d : BitVec 1) : List Byte := [opcode .setComScanDirection ||| (zext8 d <<< 3)]
def encSetComPinsConfiguration (v : Byte) : List Byte := [opcode .setComPinsConfiguration, v]
def encSetContrast (c : Byte) : List Byte := [opcode .setContrast, c]
def encSetPrechargePeriod (v : Byte) : List Byte := [opcode .setPrechargePeriod, v]
def encSetVcomhDeselectLevel (v : Byte) : List Byte := [opcode .setVcomhDeselectLevel, v]
def encResumeRamContentDisplay : List Byte := [opcode .resumeRamContentDisplay]
def encSetNormalDisplay : List Byte := [opcode .setNormalDisplay]
def encSetInverseDisplay : List Byte := [opcode .setInverseDisplay]
def encSetColumnAddress (first last : Byte) : List Byte := [opcode .setColumnAddress, first, last]
def encSetPageAddress (first last : Byte) : List Byte := [opcode .setPageAddress, first, last]
/-- R169 (order of R81): dummy, start page, frequency, end page, dummy, dummy 0xFF. -/
def encRightHorizontalScroll (sp : Byte) (f : Freq) (ep : Byte) : List Byte :=
  [opcode .rightHorizontalScroll, 0x00, sp, zext8 f, ep, 0x00, 0xFF]
/-- R170. -/
def encLeftHorizontalScroll (sp : Byte) (f : Freq) (ep : Byte) : List Byte :=
  [opcode .leftHorizontalScroll, 0x00, sp, zext8 f, ep, 0x00, 0xFF]
/-- R171 (order of R81): dummy, start page, frequency, end page, vertical offset. -/
def encVerticalAndRightHorizontalScroll (sp : Byte) (f : Freq) (ep vo : Byte) : List Byte :=
  [opcode .verticalAndRightHorizontalScroll, 0x00, sp, zext8 f, ep, vo]
/-- R172. -/
def encVerticalAndLeftHorizontalScroll (sp : Byte) (f : Freq) (ep vo : Byte) : List Byte :=
  [opcode .verticalAndLeftHorizontalScroll, 0x00, sp, zext8 f, ep, vo]
/-- R173 (order of R81): fixed rows, scroll rows. -/
def encSetVerticalScrollArea (fr sr : Byte) : List Byte := [opcode .setVerticalScrollArea, fr, sr]
def encScrollDeactivate : List Byte := [opcode .scrollDeactivate]
def encScrollActivate : List Byte := [opcode .scrollActivate]

/-! ## The encoder of instructions -/

/-- The four bytes of an `i32` operand, the least significant first (R71). -/
def i32Slots (v : I32) : List Slot :=
  [.byte (v.extractLsb' 0 8), .byte (v.extractLsb' 8 8), .byte (v.extractLsb' 16 8), .byte (v.extractLsb' 24 8)]

/-- A mode byte that holds one flag (R74: `[0]`). -/
def modeFlag (on : Bool) : Slot := .byte (zext8 (BitVec.ofBool on))

/-- A mode byte that holds a direction and a frequency code (R74: `[0]`, `[3:1]`). -/
def modeScroll (dir : Bool) (f : Freq) : Slot := .byte (zext8 (f ++ BitVec.ofBool dir))

/-- The interface on which an instruction is encoded. -/
def Instr.port : Instr → Port
  | .begin | .clear | .sync | .setPixel _ _ _ | .drawImage _ _ _ _ _ _ | .drawText _ _ _ _ _ | .setContrast _
  | .dim _ | .invert _ | .scrollHorizontal _ _ _ _ | .scrollVertical _ _ | .scrollDiagonal _ _ _ _ _ _ _
  | .stopScroll | .stop => .host
  | .cmdDisplayOff | .cmdDisplayOn | .cmdSetDisplayClockDiv _ | .cmdSetMultiplexRatio _ | .cmdSetDisplayOffset _
  | .cmdSetStartLine _ | .cmdSetChargePump _ | .cmdSetMemoryAddressingMode _ | .cmdSetSegmentRemap _
  | .cmdSetComScanDirection _ | .cmdSetComPinsConfiguration _ | .cmdSetContrast _ | .cmdSetPrechargePeriod _
  | .cmdSetVcomhDeselectLevel _ | .cmdResumeRamContentDisplay | .cmdSetNormalDisplay | .cmdSetInverseDisplay
  | .cmdSetColumnAddress _ _ | .cmdSetPageAddress _ _ | .cmdRightHorizontalScroll _ _ _
  | .cmdLeftHorizontalScroll _ _ _ | .cmdVerticalAndRightHorizontalScroll _ _ _ _
  | .cmdVerticalAndLeftHorizontalScroll _ _ _ _ | .cmdSetVerticalScrollArea _ _ | .cmdScrollDeactivate
  | .cmdScrollActivate => .encoder

/-- The words of an instruction: tag, mode byte and operand record of R74, or the frame of R150 to R175. -/
def encode : Instr → List Slot
  | .begin => [.byte 0x01]
  | .clear => [.byte 0x02]
  | .sync => [.byte 0x03]
  | .setPixel on x y => .byte 0x04 :: modeFlag on :: (i32Slots x ++ i32Slots y)
  | .drawImage ov img x0 y0 x1 y1 =>
    .byte 0x05 :: .byte (zext8 (overlayCode ov)) :: .image img
      :: (i32Slots x0 ++ (i32Slots y0 ++ (i32Slots x1 ++ i32Slots y1)))
  | .drawText ov text font x0 y0 =>
    .byte 0x06 :: .byte (zext8 (overlayCode ov)) :: .text text :: .font font :: (i32Slots x0 ++ i32Slots y0)
  | .setContrast q => [.byte 0x07, .factor (.ratio q)]
  | .dim on => [.byte 0x08, modeFlag on]
  | .invert on => [.byte 0x09, modeFlag on]
  | .scrollHorizontal hdir freq sp ep =>
    .byte 0x0A :: modeScroll (hdirCode hdir) freq :: (i32Slots sp ++ i32Slots ep)
  | .scrollVertical vdir freq => [.byte 0x0B, modeScroll (vdirCode vdir) freq]
  | .scrollDiagonal hdir freq sp ep voff fixed rows =>
    .byte 0x0C :: modeScroll (hdirCode hdir) freq
      :: (i32Slots sp ++ (i32Slots ep ++ (i32Slots voff ++ (i32Slots fixed ++ i32Slots rows))))
  | .stopScroll => [.byte 0x0D]
  | .stop => [.byte 0x0E]
  | .cmdDisplayOff => encDisplayOff.map .byte
  | .cmdDisplayOn => encDisplayOn.map .byte
  | .cmdSetDisplayClockDiv v => (encSetDisplayClockDiv v).map .byte
  | .cmdSetMultiplexRatio v => (encSetMultiplexRatio v).map .byte
  | .cmdSetDisplayOffset v => (encSetDisplayOffset v).map .byte
  | .cmdSetStartLine l => (encSetStartLine l).map .byte
  | .cmdSetChargePump en => (encSetChargePump en).map .byte
  | .cmdSetMemoryAddressingMode m => (encSetMemoryAddressingMode m).map .byte
  | .cmdSetSegmentRemap r => (encSetSegmentRemap r).map .byte
  | .cmdSetComScanDirection d => (encSetComScanDirection d).map .byte
  | .cmdSetComPinsConfiguration v => (encSetComPinsConfiguration v).map .byte
  | .cmdSetContrast c => (encSetContrast c).map .byte
  | .cmdSetPrechargePeriod v => (encSetPrechargePeriod v).map .byte
  | .cmdSetVcomhDeselectLevel v => (encSetVcomhDeselectLevel v).map .byte
  | .cmdResumeRamContentDisplay => encResumeRamContentDisplay.map .byte
  | .cmdSetNormalDisplay => encSetNormalDisplay.map .byte
  | .cmdSetInverseDisplay => encSetInverseDisplay.map .byte
  | .cmdSetColumnAddress a b => (encSetColumnAddress a b).map .byte
  | .cmdSetPageAddress a b => (encSetPageAddress a b).map .byte
  | .cmdRightHorizontalScroll sp f ep => (encRightHorizontalScroll sp f ep).map .byte
  | .cmdLeftHorizontalScroll sp f ep => (encLeftHorizontalScroll sp f ep).map .byte
  | .cmdVerticalAndRightHorizontalScroll sp f ep vo => (encVerticalAndRightHorizontalScroll sp f ep vo).map .byte
  | .cmdVerticalAndLeftHorizontalScroll sp f ep vo => (encVerticalAndLeftHorizontalScroll sp f ep vo).map .byte
  | .cmdSetVerticalScrollArea fr sr => (encSetVerticalScrollArea fr sr).map .byte
  | .cmdScrollDeactivate => encScrollDeactivate.map .byte
  | .cmdScrollActivate => encScrollActivate.map .byte

/-! ## Words numbered as spec/opcode_table.json numbers them -/

/-- Byte `k` of the number `w`, the first byte least significant. -/
def wordBytes (count w : Nat) : List Byte := (List.range count).map fun k => BitVec.ofNat 8 (w / 2 ^ (8 * k))

/-- `bs` with zero bytes after it, at least `n` bytes in all. -/
def padTo (n : Nat) (bs : List Byte) : List Byte := bs ++ List.replicate (n - bs.length) 0

/-- How many bytes the table's tag has in R74, its reference slots not counted. -/
def hostRecordBytes (tag : Nat) : Nat :=
  match tag with
  | 0x04 => 10
  | 0x05 => 18
  | 0x06 => 10
  | 0x08 => 2
  | 0x09 => 2
  | 0x0A => 10
  | 0x0B => 2
  | 0x0C => 22
  | _ => 1

/-- The smallest image, one black pixel: what a zero image slot holds (assumption 5). -/
def blackPixel : Image := ⟨1, 1, [⟨0, 0, 0⟩]⟩

/-- A host word whose bytes are given: its reference slots, which have no bits in the table, stand where R74 puts
them and hold zero (assumption 5). -/
def hostSlots (tag : Nat) (bs : List Byte) : List Slot :=
  let ws := bs.map Slot.byte
  match tag with
  | 0x05 => ws.take 2 ++ .image blackPixel :: ws.drop 2
  | 0x06 => ws.take 2 ++ .text "" :: .font 0 :: ws.drop 2
  | 0x07 => ws.take 1 ++ .factor (.ratio 0) :: ws.drop 1
  | _ => ws

/-- A table word laid out as one of the two interfaces takes it, the operand bytes it gives no bits zero. The first
byte tells the two formats of the table apart: HOSTOP tags are below 0x10, SSD1306_CMD opcodes are not. -/
def tableWord (nbits w : Nat) : Port × List Slot :=
  let bs := wordBytes ((nbits + 7) / 8) w
  let first := w % 256
  if first < 0x10 then (.host, hostSlots first (padTo (hostRecordBytes first) bs))
  else (.encoder, (padTo ((frameLength (BitVec.ofNat 8 first)).getD 1) bs).map .byte)

/-- The instruction the decoder reads from a table word. -/
def decodeTableWord (nbits w : Nat) : Option Instr :=
  (decode (tableWord nbits w).1 (tableWord nbits w).2).toOption

end Sys2Proof
end

