-- ==== Sys2Proof/Machine/Params.lean ====
section
/-! DEFINITION. What the configuration fixes: the geometry (spec/00_scope.md R7; spec/10_state.md R24), the init
parameters (spec/42_command_encoder.md R176) and CFG as a 5-bit register (spec/10_state.md R23). -/

namespace Sys2Proof.Machine

/-- W (R7). -/
def width : Dims → Nat
  | .w128h64 => 128
  | .w128h32 => 128
  | .w96h16 => 96

/-- H (R7). -/
def height : Dims → Nat
  | .w128h64 => 64
  | .w128h32 => 32
  | .w96h16 => 16

/-- P = H / 8 (R7, R24). -/
def pages (d : Dims) : Nat := height d / 8

/-- R176. -/
def clockDiv : Dims → Byte
  | .w128h64 => 0x80
  | .w128h32 => 0x80
  | .w96h16 => 0x60

/-- R176. -/
def mux : Dims → Byte
  | .w128h64 => 0x3F
  | .w128h32 => 0x1F
  | .w96h16 => 0x0F

/-- R176. -/
def comPins : Dims → Byte
  | .w128h64 => 0x12
  | .w128h32 => 0x02
  | .w96h16 => 0x02

/-- R156: the charge pump is enabled unless external VCC is supplied. -/
def chargePumpEnabled : Vcc → Bool
  | .internal => true
  | .external => false

/-- R176. -/
def initContrast : Vcc → Byte
  | .internal => 0xCF
  | .external => 0x9F

/-- R176. -/
def precharge : Vcc → Byte
  | .internal => 0xF1
  | .external => 0x22

/-- The dims code of CFG[1:0] (R7, R23). -/
def dimsCode : Dims → BitVec 2
  | .w128h64 => 0
  | .w128h32 => 1
  | .w96h16 => 2

/-- The dims of a code. Code 3 is unsupported (R23, R84). -/
def dimsOf (code : BitVec 2) : Option Dims :=
  match code.toNat with
  | 0 => some .w128h64
  | 1 => some .w128h32
  | 2 => some .w96h16
  | _ => none

/-- CFG as the 5-bit register of R23: hasResetPin, bus, vcc, dims from bit 4 down. -/
def cfgBits (c : Cfg) : BitVec 5 :=
  BitVec.ofBool c.hasResetPin ++ BitVec.ofBool (decide (c.bus = .spi)) ++ BitVec.ofBool (decide (c.vcc = .external))
    ++ dimsCode c.dims

/-- The configuration that a value of CFG stands for (R23). -/
def cfgOf (v : BitVec 5) : Option Cfg :=
  (dimsOf (v.extractLsb' 0 2)).map fun d =>
    { dims := d
      vcc := if v.getLsbD 2 then .external else .internal
      bus := if v.getLsbD 3 then .spi else .i2c
      hasResetPin := v.getLsbD 4 }

end Sys2Proof.Machine
end

