-- ==== Sys2Proof/Machine/Memory.lean ====
section
/-! DEFINITION. The one form both memories take, the raster (spec/10_state.md R28) and the device buffer (R30): a list
of (address, value) pairs, addresses strictly rising, no entry equal to the value `d` that an unlisted address reads
as. Reads and writes have no other effect (spec/20_memory.md R52, R54). -/

namespace Sys2Proof.Machine

variable {α : Type} [DecidableEq α]

/-- The value at address `a`. -/
def Memory.read (d : α) : List (Nat × α) → Nat → α
  | [], _ => d
  | (b, v) :: rest, a => if a = b then v else Memory.read d rest a

/-- The memory with `v` at address `a`. -/
def Memory.write (d : α) : List (Nat × α) → Nat → α → List (Nat × α)
  | [], a, v => if v = d then [] else [(a, v)]
  | (b, w) :: rest, a, v =>
    if a < b then (if v = d then (b, w) :: rest else (a, v) :: (b, w) :: rest)
    else if a = b then (if v = d then rest else (a, v) :: rest)
    else (b, w) :: Memory.write d rest a v

/-- The memory in which every address `a` below `n` holds `f a` of what it held: a loop over distinct cells, whose
order matters to no result (R17). -/
def Memory.rewrite (d : α) (n : Nat) (f : Nat → α → α) (m : List (Nat × α)) : List (Nat × α) :=
  (List.range n).filterMap (fun a => if f a (Memory.read d m a) = d then none else some (a, f a (Memory.read d m a)))
    ++ m.filter fun c => decide (n ≤ c.1)

/-- Every address from `lo` on, in strictly rising order, none holding `d`. -/
def Memory.risingFrom (d : α) : Nat → List (Nat × α) → Bool
  | _, [] => true
  | lo, (a, v) :: rest => decide (lo ≤ a) && decide (v ≠ d) && Memory.risingFrom d (a + 1) rest

/-- The canonical form. -/
def Memory.wf (d : α) (m : List (Nat × α)) : Bool := Memory.risingFrom d 0 m

/-- Every listed address is below `n`. -/
def Memory.below (n : Nat) (m : List (Nat × α)) : Bool := m.all fun c => decide (c.1 < n)

end Sys2Proof.Machine
end

