-- ==== Sys2Proof/Machine/State.lean ====
section
/-! DEFINITION. The state of the encoder block (spec/10_state.md): the configuration, the stored contrast, the raster,
the device buffer, the output trace and the ghost state, each as the rules give it; and beside them what hosts have
handed over and what came of it (R21, R40; spec/60_exceptions.md R240, R258, R259). -/

namespace Sys2Proof.Machine

/-- A duration parameter that an `EmitWait` names (R16). The only wait is BEGIN's (R246). -/
inductive Duration where
  | tResetLow
deriving DecidableEq, Repr

/-- The kinds of report (R34). -/
inductive ReportKind where
  | contrastClamped
  | transportFailure
  | waitInterrupted
deriving DecidableEq, Repr

/-- An event of the output trace (R34). -/
inductive Event where
  | cmd (bs : List Byte)
  | data (bs : List Byte)
  | pin (l : Level)
  | wait (name : Duration)
  | report (k : ReportKind)
deriving DecidableEq, Repr

/-- The scroll modes of `ghost.scroll` (R35). -/
inductive ScrollMode where
  | inactive
  | horizontal
  | vertical
  | diagonal
deriving DecidableEq, Repr

/-- An error with its recorded value (R241). -/
inductive OpError where
  /-- ERR_RECT, with the four coordinates. -/
  | rect (x0 y0 x1 y1 : Int)
  /-- ERR_PIXEL_RANGE, with (x, y). -/
  | pixelRange (x y : Int)
  /-- ERR_PAGE_RANGE, with (sp, ep). -/
  | pageRange (sp ep : Int)
  /-- ERR_VOFFSET, with voff. -/
  | vOffset (voff : Int)
deriving DecidableEq, Repr

/-- The result of an operation: Ok or Error(code) (R240). -/
inductive OpResult where
  | ok
  | error (e : OpError)
deriving DecidableEq, Repr

/-- One operation that ended: the host it returns to (R255) and its result. -/
structure Completed where
  host   : HostId
  result : OpResult
deriving DecidableEq, Repr

/-- One operation that a host has issued and the block has not accepted yet (R21; assumption 1). -/
structure Request where
  /-- The host that issued it. -/
  host    : HostId
  /-- It was issued after an order with every earlier operation of another host was established (R61, R259;
  assumption 9). -/
  ordered : Bool
  /-- It was called on the controller that the same host's operation before it returned (R240; assumption 10). -/
  chained : Bool
  /-- The interface it is encoded for. -/
  port    : Port
  /-- The encoded operation. -/
  words   : List Slot
deriving DecidableEq, Repr

/-- The state of the block. -/
structure State where
  /-- CFG, read-only (R23). -/
  cfg            : Cfg
  /-- The stored-contrast register, 8 bits (R25). -/
  storedContrast : Byte
  /-- The raster: W·H bits, pixel (x, y) at address `y * W + x`, `true` = ON (R28, R29). Unlisted reads OFF. -/
  raster         : List (Nat × Bool)
  /-- The device buffer `dbuf`: P·W bytes (R30). Unlisted reads 0x00. -/
  dbuf           : List Host.Cell
  /-- The output trace `out`, append-only (R33). -/
  out            : List Event
  /-- `ghost.scroll` (R35). -/
  ghostScroll    : ScrollMode
  /-- `ghost.begun` (R35). -/
  ghostBegun     : Bool
  /-- SET_PIXEL has written dbuf since the last SyncBody (R274, R280). The model's own, beside the ghost state: only
  `hazards` reads it (assumption 29). -/
  pixelPending   : Bool
  /-- The byte list that the command encoder gave last, `[]` if it has given none (R82). The model's own: no rule reads
  it (assumption 3). -/
  encoded        : List Byte
  /-- The operations issued and not accepted yet, in issue order (R21, R58). -/
  input          : List Request
  /-- The results of the operations that ended, in order (R40, R240). -/
  results        : List Completed
  /-- The host whose operation the block runs, or ran last (R258). The model's own. -/
  host           : HostId
  /-- The host of the last operation that R259 counts, if there was one, whatever its result (assumption 9). The
  model's own. -/
  owner          : Option HostId
  /-- How many draws have been taken (R246, R252, R60). The model's own: the free values' counter. -/
  draws          : Nat
deriving DecidableEq, Repr

/-- The reasons a step can fault. No operation of the block raises one: an operation ends in `Ok` or in an `Error`
result, which is a next state (R240, R248), and no behaviour is treated as stuck (spec/93_implementation_defined.md). -/
inductive Fault where
  /-- A byte index outside 0..P·W−1 was read or written (R55). Raised by `readBuffer` and `writeBuffer`. Safe: the
  model stops. SET_PIXEL's range check keeps every index inside (R113), so no operation reaches it. -/
  | bufferIndex (i : Nat)
deriving DecidableEq, Repr

/-- The reasons the model has no meaning for an input (R243). Every one is safe: the run stops there, and no claim
about what follows can be proved. -/
inductive Refusal where
  /-- An instruction whose meaning is not written. Raised by `exec`'s arms alone. Safe. -/
  | notModelled (mnemonic : String)
  /-- A word that spells no instruction: a reserved encoding (R83) or a factor that is NaN or infinite (R220).
  Raised by `step`. Safe. -/
  | badEncoding (e : DecodeError)
  /-- A rectangle of a size beyond 2^31 − 1 (R133). Raised by DRAW_IMAGE, and by DRAW_TEXT for such a box. Safe. -/
  | rectTooLarge
  /-- A text end coordinate beyond 2^31 − 1 (R140). Raised by DRAW_TEXT. Safe. -/
  | textEndTooLarge
  /-- Two hosts touch the raster, dbuf or storedContrast without an order between them (R61, R259).
  Raised by `step`. Safe. -/
  | unorderedHosts
  /-- Construction with CFG.dims = 3 (R84, R244). Raised by `State.ofCfgBits`. Safe. -/
  | unsupportedDims
deriving DecidableEq, Repr

/-- The block right after construction with configuration `c`: the table of R39. The model's own fields hold
nothing yet (assumption 17). -/
def State.construct (c : Cfg) : State :=
  { cfg := c
    storedContrast := initContrast c.vcc
    raster := []
    dbuf := []
    out := []
    ghostScroll := .inactive
    ghostBegun := false
    pixelPending := false
    encoded := []
    input := []
    results := []
    host := 0
    owner := none
    draws := 0 }

/-- Construction from a value of the CFG register. With dims = 3 there is no block (R244). -/
def State.ofCfgBits (v : BitVec 5) : Except Refusal State :=
  match cfgOf v with
  | some c => .ok (State.construct c)
  | none => .error .unsupportedDims

/-- The state right after reset: construction is the only reset (R270), and its arguments have no default (R8, D5).
The model takes 128 × 64, INTERNAL, I2C, no reset pin (assumption 2). -/
def State.reset : State := State.construct { dims := .w128h64, vcc := .internal, bus := .i2c, hasResetPin := false }

end Sys2Proof.Machine
end

