-- ==== Sys2Proof/Machine/Flags.lean ====
section
/-! DEFINITION. The block "has no status flags or condition codes" (spec/10_state.md R22): the only status an operation
yields is its result, and this file gives the result's code (spec/60_exceptions.md R241). -/

namespace Sys2Proof.Machine

/-- The error code (R241). -/
def errorCode : OpError → Nat
  | .rect _ _ _ _ => 1
  | .pixelRange _ _ => 2
  | .pageRange _ _ => 3
  | .vOffset _ => 4

/-- The code of a result, `none` for Ok (R240). -/
def resultCode : OpResult → Option Nat
  | .ok => none
  | .error e => some (errorCode e)

end Sys2Proof.Machine
end

