-- ==== Sys2Proof/Machine/Operands.lean ====
section
/-! DEFINITION. What the operations compute from their operands: coordinate and range checks, pixel classification and
overlay composition, the external functions `resample` and `rasterize`, the contrast conversion, and the packing map. -/

namespace Sys2Proof.Machine

/-! ## Coordinates and checks -/

/-- 2^31 − 1, the largest `i32` (R27). -/
def maxI32 : Int := 2147483647

/-- SET_PIXEL's check: 0 ≤ x < W and 0 ≤ y < H (R113). -/
def pixelInRange (d : Dims) (x y : Int) : Bool :=
  decide (0 ≤ x) && decide (x < width d) && decide (0 ≤ y) && decide (y < height d)

/-- The rectangle precondition, both comparisons strict (R132). -/
def rectWellFormed (x0 y0 x1 y1 : Int) : Bool := decide (x0 < x1) && decide (y0 < y1)

/-- The rectangle's size does not fit a 32-bit integer (R133). -/
def rectOversized (x0 y0 x1 y1 : Int) : Bool := decide (maxI32 < x1 - x0) || decide (maxI32 < y1 - y0)

/-- A pixel is inside a half-open rectangle (R134). -/
def insideRect (x0 y0 x1 y1 x y : Int) : Bool :=
  decide (x0 ≤ x) && decide (x < x1) && decide (y0 ≤ y) && decide (y < y1)

/-- 0 ≤ sp ≤ ep < P, signed (R202). -/
def pageRangeOk (d : Dims) (sp ep : Int) : Bool :=
  decide (0 ≤ sp) && decide (sp ≤ ep) && decide (ep < pages d)

/-- 0 ≤ voff < W: the bound is the width, not the height (R204). -/
def vOffsetOk (d : Dims) (voff : Int) : Bool := decide (0 ≤ voff) && decide (voff < width d)

/-! ## The pixel-to-buffer map (R45 to R48) -/

/-- The raster address of pixel (x, y). -/
def pixelKey (d : Dims) (x y : Nat) : Nat := y * width d + x

/-- idx(x, y) = (y / 8) · W + x (R46). -/
def byteIndex (d : Dims) (x y : Nat) : Nat := y / 8 * width d + x

/-- bit(y) = y % 8 (R46). -/
def bitIndex (y : Nat) : Nat := y % 8

/-- Σ over b = 0..7 of bit b shifted left by b (R48). -/
def packBits (f : Nat → Bool) : Byte :=
  (List.range 8).foldl (fun acc b => acc + (zext8 (BitVec.ofBool (f b)) <<< b)) 0

/-- pack(raster)[i] (R48): bit b is pixel (i % W, (i / W)·8 + b). -/
def packByte (d : Dims) (pixel : Nat → Nat → Bool) (i : Nat) : Byte :=
  packBits fun b => pixel (i % width d) (i / width d * 8 + b)

/-! ## Pixels -/

/-- ON if r + g + b > 192, otherwise OFF, the sum exact (R111). -/
def classify (p : Rgb) : Bool := decide (192 < p.r.toNat + p.g.toNat + p.b.toNat)

/-- The new raster bit from the old one `r` and the classified source bit `s` (R131). -/
def compose (ov : Overlay) (r s : Bool) : Bool :=
  match ov with
  | .full => s
  | .onPixels => r || s
  | .offPixels => r && s
  | .none => r

/-! ## The external functions -/

/-- The one RGB value that every pixel of the image has, if there is one. -/
def uniformValue (img : Image) : Option Rgb :=
  match img.pixels with
  | [] => none
  | p :: rest => if rest.all fun q => decide (q = p) then some p else none

/-- Pixel (x, y) of `resample(img, w, h)` (R12). P-UNIFORM holds by definition; of any other image nothing is said:
the pixel is a free value (assumption 11). -/
def resampleAt (img : Image) (w h x y : Nat) : Rgb :=
  match uniformValue img with
  | some p => p
  | none => Config.sample img w h x y

/-- The image of size w × h whose pixel (x, y) is `f x y`. -/
def tabulate (w h : Nat) (f : Nat → Nat → Rgb) : Image :=
  ⟨w, h, (List.range (w * h)).map fun k => f (k % w) (k / w)⟩

/-- mw, the measured width of a text (R13). -/
def textWidth (font : Font) (text : String) : Nat := (Config.textBox font text).1

/-- mh, the measured height of a text (R13). -/
def textHeight (font : Font) (text : String) : Nat := (Config.textBox font text).2

/-- The binary raster of `rasterize(font, text)`, of the measured size (R13). Its pixels are free values
(assumption 12). -/
def rasterImage (font : Font) (text : String) : Image :=
  tabulate (textWidth font text) (textHeight font text) (Config.textPixel font text)

/-- What `rasterize` answers, all that enters the block of a text (R13, R141). -/
structure Rasterised where
  img    : Image
  width  : Nat
  height : Nat
deriving DecidableEq, Repr

/-- `rasterize(font, text)` = (T, mw, mh) (R13). -/
def rasterize (font : Font) (text : String) : Rasterised :=
  { img := rasterImage font text
    width := textWidth font text
    height := textHeight font text }

/-! ## Contrast and inversion -/

/-- clamp(factor, 0, 1) = min(max(factor, 0), 1) (R14, R221). -/
def clampFactor (q : Rat) : Rat := min (max q 0) 1

/-- floor(fc · 255 + 1/2): an exact product, rounded half up (R222). -/
def contrastByte (fc : Rat) : Byte := BitVec.ofInt 8 (fc * 255 + 1 / 2).floor

/-- INVERT's frame: SET_INVERSE_DISPLAY or SET_NORMAL_DISPLAY (R225). -/
def invertFrame (on : Bool) : List Byte := if on then encSetInverseDisplay else encSetNormalDisplay

/-! ## Scroll -/

/-- The vertical offset of a vertical scroll: 1 for UP, H − 1 for DOWN (R205); `vo(v)` of R86. -/
def verticalOffset (d : Dims) : VDir → Nat
  | .up => 1
  | .down => height d - 1

end Sys2Proof.Machine
end

