-- ==== Sys2Proof/Machine/Ops.lean ====
section
/-! DEFINITION. The named operations over the state: the state primitives of spec/00_scope.md R15, the emission
primitives of R16 with the draws of spec/60_exceptions.md R246 and R252 and the frame boundaries of
spec/20_memory.md R60, SyncBody (spec/40_framebuffer.md R117), the result of an operation, and raising an error
(R248), the block's only exception; "there is no return-from-error operation" (R249). -/

namespace Sys2Proof.Machine

/-- What an instruction answers. -/
abbrev Answer := Host.Outcome State Fault Refusal

/-! ## One update per field -/

def State.withContrast (s : State) (c : Byte) : State := { s with storedContrast := c }
def State.withRaster (s : State) (r : List (Nat × Bool)) : State := { s with raster := r }
def State.withBuffer (s : State) (m : List Host.Cell) : State := { s with dbuf := m }
def State.withScroll (s : State) (m : ScrollMode) : State := { s with ghostScroll := m }
def State.withBegun (s : State) (b : Bool) : State := { s with ghostBegun := b }
def State.withPixelPending (s : State) (b : Bool) : State := { s with pixelPending := b }
def State.withEncoded (s : State) (bs : List Byte) : State := { s with encoded := bs }
def State.withInput (s : State) (q : List Request) : State := { s with input := q }

/-- One more result, the next one in order (R40, R240). -/
def State.addResult (s : State) (h : HostId) (r : OpResult) : State := { s with results := s.results ++ [⟨h, r⟩] }

/-- Events appended to the trace; none is ever removed or reordered (R33). -/
def State.addEvents (s : State) (es : List Event) : State := { s with out := s.out ++ es }

/-- `k` draws taken. -/
def State.takeDraws (s : State) (k : Nat) : State := { s with draws := s.draws + k }

/-! ## Raster and device buffer (R15) -/

/-- `raster[x, y]` (R15, R28). -/
def State.pixel (s : State) (x y : Nat) : Bool := Memory.read false s.raster (pixelKey s.cfg.dims x y)

/-- The raster with `g x y` of its old bit at every pixel of the display. -/
def State.mapRaster (s : State) (g : Nat → Nat → Bool → Bool) : State :=
  s.withRaster (Memory.rewrite false (width s.cfg.dims * height s.cfg.dims)
    (fun a old => g (a % width s.cfg.dims) (a / width s.cfg.dims) old) s.raster)

/-- P·W, the number of bytes of dbuf (R30). -/
def bufferSize (d : Dims) : Nat := pages d * width d

/-- `dbuf[i]` (R15, R30). -/
def State.bufferByte (s : State) (i : Nat) : Byte := Memory.read 0 s.dbuf i

/-- Read one byte of the buffer space, 0..P·W−1 (R55). -/
def readBuffer (i : Nat) (s : State) : Except Fault Byte :=
  if i < bufferSize s.cfg.dims then .ok (s.bufferByte i) else .error (.bufferIndex i)

/-- Write one byte of the buffer space, 0..P·W−1 (R55). -/
def writeBuffer (i : Nat) (v : Byte) (s : State) : Except Fault State :=
  if i < bufferSize s.cfg.dims then .ok (s.withBuffer (Memory.write 0 s.dbuf i v)) else .error (.bufferIndex i)

/-- dbuf[0], dbuf[1], …, dbuf[P·W−1], in increasing index order (R49, R117). -/
def State.bufferBytes (s : State) : List Byte := (List.range (bufferSize s.cfg.dims)).map s.bufferByte

/-- CLEAR's body: every raster pixel OFF (R110). -/
def clearBody (s : State) : State := s.mapRaster fun _ _ _ => false

/-! ## Emission (R16) -/

/-- A `Cmd` or `Data` event: one frame, the unit under the bus lock (R60). -/
def isFrame : Event → Bool
  | .cmd _ => true
  | .data _ => true
  | .pin _ => false
  | .wait _ => false
  | .report _ => false

/-- The report that follows an event at once: of a failed frame (R251, R252) or an interrupted wait (R246). -/
def drawnReport (n : Nat) : Event → List Event
  | .cmd _ | .data _ =>
    match Config.transportOutcome n with
    | .delivered => []
    | .failed => [.report .transportFailure]
  | .wait _ => if Config.waitInterrupted n then [.report .waitInterrupted] else []
  | .pin _ => []
  | .report _ => []

/-- How many draws an event takes. -/
def drawsOf : Event → Nat
  | .cmd _ | .data _ | .wait _ => 1
  | .pin _ | .report _ => 0

/-- Append one event and the report its draw gives. -/
def emitOwn (e : Event) (s : State) : State :=
  (s.addEvents (e :: drawnReport s.draws e)).takeDraws (drawsOf e)

/-- A waiting INVERT of another host: "the only operation that touches none of the raster, dbuf and storedContrast",
whose frame "interleaves with other hosts' frames at frame boundaries" (R258). -/
structure Intruder where
  host : HostId
  on   : Bool
  /-- The operations still waiting when it has run. -/
  rest : List Request
deriving DecidableEq, Repr

/-- The operand of a waiting request that is an INVERT with no order before it. -/
def freeInvert (r : Request) : Option Bool :=
  if r.ordered then none
  else
    match decode r.port r.words with
    | .ok (.invert on) => some on
    | _ => none

/-- The requests of `rest` that may take the bus now, `before` being the requests ahead of them: INVERTs of a host
other than `cur` with nothing of their own host ahead of them (R60: "consistent with each host's own order"). -/
def intrudersFrom (cur : HostId) (before : List Request) : List Request → List Intruder
  | [] => []
  | r :: rest =>
    (match freeInvert r with
      | some on =>
        if r.host ≠ cur ∧ (before.all fun p => decide (p.host ≠ r.host)) = true then [⟨r.host, on, before ++ rest⟩]
        else []
      | none => [])
    ++ intrudersFrom cur (before ++ [r]) rest

/-- The frames of other hosts that may take the bus at a frame boundary. -/
def State.intruders (s : State) : List Intruder := intrudersFrom s.host [] s.input

/-- Run one waiting INVERT: its one frame (R225) and its result. -/
def runIntruder (w : Intruder) (s : State) : State :=
  (emitOwn (.cmd (invertFrame w.on)) (s.withInput w.rest)).addResult w.host .ok

/-- The intruder that the draw picks, if it picks one. -/
def pickIntruder (s : State) : Option Intruder :=
  (Config.interleave s.draws).bind fun k => s.intruders[k]?

/-- A frame boundary: while frames of other hosts wait, a draw says which one takes the bus, if any (R60). The first
argument bounds the number of frames by the number of requests waiting. -/
def frameBoundary : Nat → State → State
  | 0, s => s
  | n + 1, s =>
    if s.intruders = [] then s
    else
      match pickIntruder s with
      | none => s.takeDraws 1
      | some w => frameBoundary n (runIntruder w (s.takeDraws 1))

/-- The points at which frames of other hosts may come: before each event that an operation emits. No frame is under
way there (R60). After an operation's last event comes its end, not one of these points: a frame that comes then is
that of an operation accepted next (R21; assumption 8), and so STOP's last command stays the last one (R231). -/
def busBoundary (s : State) : State := frameBoundary s.input.length s

/-- `EmitCmd`, `EmitData`, `EmitPin`, `EmitWait`, `Report` (R16). -/
def emit (e : Event) (s : State) : State := emitOwn e (busBoundary s)

/-- Events emitted one after the other. -/
def emitAll (es : List Event) (s : State) : State := es.foldl (fun s e => emit e s) s

/-! ## SyncBody (R117) -/

/-- `dbuf[p*W + x] <- pack(raster)[p*W + x]` for every p and x. No SET_PIXEL write is left. -/
def packBuffer (s : State) : State :=
  (s.withBuffer (Memory.rewrite 0 (bufferSize s.cfg.dims) (fun i _ => packByte s.cfg.dims s.pixel i) s.dbuf))
    |>.withPixelPending false

/-- SyncBody's two command frames: the whole display's columns, then its pages (R57, R117). -/
def windowFrames (d : Dims) : List Event :=
  [.cmd (encSetColumnAddress 0x00 (low8Nat (width d - 1))), .cmd (encSetPageAddress 0x00 (low8Nat (pages d - 1)))]

/-- SyncBody's three frames, of a state whose dbuf is packed. -/
def syncFrames (s : State) : List Event := windowFrames s.cfg.dims ++ [.data s.bufferBytes]

/-- SyncBody (R117): pack the raster into dbuf, then send all of it. -/
def syncBody (s : State) : State := emitAll (syncFrames (packBuffer s)) (packBuffer s)

/-! ## The result of an operation -/

/-- The operation returns `Ok` (R240). -/
def complete (s : State) : Answer := .next (s.addResult s.host .ok)

/-- The requests that are left when the chained calls of host `h` are dropped, up to the first operation it issued on
its own: "a chained script stops at the first `Error`" (R240; assumption 10). -/
def dropChained (h : HostId) : List Request → List Request
  | [] => []
  | r :: rest =>
    if r.host = h then (if r.chained then dropChained h rest else r :: rest) else r :: dropChained h rest

/-- `raise Error(code)` (R248): the operation ends at once with its error and has no effect; raster, dbuf,
storedContrast, ghost and out stay as they were. -/
def raiseError (e : OpError) (s : State) : Answer :=
  .next ((s.withInput (dropChained s.host s.input)).addResult s.host (.error e))

/-- The command encoder maps a command to its bytes, "a pure mapping: operation name → byte(s); it performs no I/O
itself" (R82): it answers the byte list and emits nothing. The operations emit those lists with `EmitCmd`, and so only
the operands their rules give ever leave the block (R85; assumption 3). -/
def runCommand (frame : List Byte) (s : State) : Answer := .next (s.withEncoded frame)

/-! ## Accepting an operation (R21, R61, R259) -/

/-- The operations that "read or write the raster, dbuf or storedContrast" (R259). -/
def touchesPicture : Instr → Bool
  | .begin | .clear | .sync | .setPixel _ _ _ | .drawImage _ _ _ _ _ _ | .drawText _ _ _ _ _ | .setContrast _
  | .dim _ | .scrollHorizontal _ _ _ _ | .scrollVertical _ _ | .scrollDiagonal _ _ _ _ _ _ _ | .stopScroll
  | .stop => true
  | .invert _ => false
  | .cmdDisplayOff | .cmdDisplayOn | .cmdSetDisplayClockDiv _ | .cmdSetMultiplexRatio _ | .cmdSetDisplayOffset _
  | .cmdSetStartLine _ | .cmdSetChargePump _ | .cmdSetMemoryAddressingMode _ | .cmdSetSegmentRemap _
  | .cmdSetComScanDirection _ | .cmdSetComPinsConfiguration _ | .cmdSetContrast _ | .cmdSetPrechargePeriod _
  | .cmdSetVcomhDeselectLevel _ | .cmdResumeRamContentDisplay | .cmdSetNormalDisplay | .cmdSetInverseDisplay
  | .cmdSetColumnAddress _ _ | .cmdSetPageAddress _ _ | .cmdRightHorizontalScroll _ _ _
  | .cmdLeftHorizontalScroll _ _ _ | .cmdVerticalAndRightHorizontalScroll _ _ _ _
  | .cmdVerticalAndLeftHorizontalScroll _ _ _ _ | .cmdSetVerticalScrollArea _ _ | .cmdScrollDeactivate
  | .cmdScrollActivate => false

/-- The request spells an instruction, or none. -/
def Request.instr (r : Request) : Except DecodeError Instr := decode r.port r.words

/-- Another host issued the last operation that R259 counts, and no order was established since (R61; assumption 9). -/
def unordered (i : Instr) (r : Request) (s : State) : Bool :=
  touchesPicture i && !r.ordered && (match s.owner with
    | none => false
    | some h => decide (h ≠ r.host))

/-- The block accepts the request at the head of the input, `rest` being what stays there. The operation counts for
R259 from here on, before its checks: an operation that ends in an Error has been issued all the same, and no rule says
whether R249 undoes that (DESIGN CHOICE, assumption 9). -/
def accept (i : Instr) (r : Request) (rest : List Request) (s : State) : State :=
  { s with
    input := rest
    host := r.host
    owner := if touchesPicture i then some r.host else s.owner }

/-- The request that `withFetchWord` hands over: the block's current host issues it, in order and on its own. -/
def fetchRequest (s : State) (nbits w : Nat) : Request :=
  { host := s.host
    ordered := true
    chained := false
    port := (tableWord nbits w).1
    words := (tableWord nbits w).2 }

end Sys2Proof.Machine
end

