-- ==== Sys2Proof/Machine/Commands.lean ====
section
/-! DEFINITION. The 26 SSD1306 commands as instructions (spec/42_command_encoder.md R150 to R175): each is
the command's encoding function, the opcode byte followed by its parameter bytes (R76). It emits nothing (R82) and
changes nothing of the block but the encoder's last answer. -/

namespace Sys2Proof.Machine

/-- DISPLAY_OFF (R150). -/
def execCmdDisplayOff (s : State) : Answer := runCommand encDisplayOff s

/-- DISPLAY_ON (R151). -/
def execCmdDisplayOn (s : State) : Answer := runCommand encDisplayOn s

/-- SET_DISPLAY_CLOCK_DIV (R152). -/
def execCmdSetDisplayClockDiv (v : Byte) (s : State) : Answer := runCommand (encSetDisplayClockDiv v) s

/-- SET_MULTIPLEX_RATIO (R153). -/
def execCmdSetMultiplexRatio (v : Byte) (s : State) : Answer := runCommand (encSetMultiplexRatio v) s

/-- SET_DISPLAY_OFFSET (R154). -/
def execCmdSetDisplayOffset (v : Byte) (s : State) : Answer := runCommand (encSetDisplayOffset v) s

/-- SET_START_LINE (R155). -/
def execCmdSetStartLine (l : BitVec 6) (s : State) : Answer := runCommand (encSetStartLine l) s

/-- SET_CHARGE_PUMP (R156). -/
def execCmdSetChargePump (en : Bool) (s : State) : Answer := runCommand (encSetChargePump en) s

/-- SET_MEMORY_ADDRESSING_MODE (R157). -/
def execCmdSetMemoryAddressingMode (m : Byte) (s : State) : Answer := runCommand (encSetMemoryAddressingMode m) s

/-- SET_SEGMENT_REMAP (R158). -/
def execCmdSetSegmentRemap (r : BitVec 1) (s : State) : Answer := runCommand (encSetSegmentRemap r) s

/-- SET_COM_SCAN_DIRECTION (R159). -/
def execCmdSetComScanDirection (d : BitVec 1) (s : State) : Answer := runCommand (encSetComScanDirection d) s

/-- SET_COM_PINS_CONFIGURATION (R160). -/
def execCmdSetComPinsConfiguration (v : Byte) (s : State) : Answer := runCommand (encSetComPinsConfiguration v) s

/-- SET_CONTRAST (R161). -/
def execCmdSetContrast (c : Byte) (s : State) : Answer := runCommand (encSetContrast c) s

/-- SET_PRECHARGE_PERIOD (R162). -/
def execCmdSetPrechargePeriod (v : Byte) (s : State) : Answer := runCommand (encSetPrechargePeriod v) s

/-- SET_VCOMH_DESELECT_LEVEL (R163). -/
def execCmdSetVcomhDeselectLevel (v : Byte) (s : State) : Answer := runCommand (encSetVcomhDeselectLevel v) s

/-- RESUME_RAM_CONTENT_DISPLAY (R164). -/
def execCmdResumeRamContentDisplay (s : State) : Answer := runCommand encResumeRamContentDisplay s

/-- SET_NORMAL_DISPLAY (R165). -/
def execCmdSetNormalDisplay (s : State) : Answer := runCommand encSetNormalDisplay s

/-- SET_INVERSE_DISPLAY (R166). -/
def execCmdSetInverseDisplay (s : State) : Answer := runCommand encSetInverseDisplay s

/-- SET_COLUMN_ADDRESS (R167). -/
def execCmdSetColumnAddress (first last : Byte) (s : State) : Answer := runCommand (encSetColumnAddress first last) s

/-- SET_PAGE_ADDRESS (R168). -/
def execCmdSetPageAddress (first last : Byte) (s : State) : Answer := runCommand (encSetPageAddress first last) s

/-- RIGHT_HORIZONTAL_SCROLL (R169). -/
def execCmdRightHorizontalScroll (sp : Byte) (f : Freq) (ep : Byte) (s : State) : Answer := runCommand (encRightHorizontalScroll sp f ep) s

/-- LEFT_HORIZONTAL_SCROLL (R170). -/
def execCmdLeftHorizontalScroll (sp : Byte) (f : Freq) (ep : Byte) (s : State) : Answer := runCommand (encLeftHorizontalScroll sp f ep) s

/-- VERTICAL_AND_RIGHT_HORIZONTAL_SCROLL (R171). -/
def execCmdVerticalAndRightHorizontalScroll (sp : Byte) (f : Freq) (ep vo : Byte) (s : State) : Answer := runCommand (encVerticalAndRightHorizontalScroll sp f ep vo) s

/-- VERTICAL_AND_LEFT_HORIZONTAL_SCROLL (R172). -/
def execCmdVerticalAndLeftHorizontalScroll (sp : Byte) (f : Freq) (ep vo : Byte) (s : State) : Answer := runCommand (encVerticalAndLeftHorizontalScroll sp f ep vo) s

/-- SET_VERTICAL_SCROLL_AREA (R173). -/
def execCmdSetVerticalScrollArea (fr sr : Byte) (s : State) : Answer := runCommand (encSetVerticalScrollArea fr sr) s

/-- SCROLL_DEACTIVATE (R174). -/
def execCmdScrollDeactivate (s : State) : Answer := runCommand encScrollDeactivate s

/-- SCROLL_ACTIVATE (R175). -/
def execCmdScrollActivate (s : State) : Answer := runCommand encScrollActivate s

end Sys2Proof.Machine
end

