-- ==== Sys2Proof/Machine/Compositing.lean ====
section
/-! DEFINITION. DRAW_IMAGE and DRAW_TEXT (spec/41_compositing.md). -/

namespace Sys2Proof.Machine

/-- The loop of R135: every pixel inside both the rectangle and the display takes `compose` of its old bit and the
classified pixel S[x − x0, y − y0] of the scaled image (R134). -/
def compositeBody (ov : Overlay) (img : Image) (x0 y0 x1 y1 : Int) (s : State) : State :=
  s.mapRaster fun x y old =>
    if insideRect x0 y0 x1 y1 x y then
      compose ov old
        (classify (resampleAt img (x1 - x0).toNat (y1 - y0).toNat ((x : Int) - x0).toNat ((y : Int) - y0).toNat))
    else old

/-- DRAW_IMAGE's body over exact coordinates (R132, R133, R135): the rectangle first, then NONE, then the size. -/
def drawRect (ov : Overlay) (img : Image) (x0 y0 x1 y1 : Int) (s : State) : Answer :=
  if rectWellFormed x0 y0 x1 y1 then
    if ov = .none then complete s
    else if rectOversized x0 y0 x1 y1 then .refused .rectTooLarge
    else complete (compositeBody ov img x0 y0 x1 y1 s)
  else raiseError (.rect x0 y0 x1 y1) s

/-- DRAW_IMAGE (R135). -/
def execDrawImage (ov : Overlay) (img : Image) (x0 y0 x1 y1 : I32) (s : State) : Answer :=
  drawRect ov img x0.toInt y0.toInt x1.toInt y1.toInt s

/-- The exact end coordinates of a rasterised text drawn at (x0, y0): x0 + mw, y0 + mh (R140). -/
def textEnd (r : Rasterised) (x0 y0 : Int) : Int × Int := (x0 + r.width, y0 + r.height)

/-- A text end coordinate is beyond 2^31 − 1 (R140). -/
def textOversized (r : Rasterised) (x0 y0 : Int) : Bool :=
  decide (maxI32 < (textEnd r x0 y0).1) || decide (maxI32 < (textEnd r x0 y0).2)

/-- DRAW_TEXT's body once the text is rasterised: DRAW_IMAGE of the raster on its measured box, errors and refusals
included; an end coordinate beyond 2^31 − 1 is refused first (R140, assumption 21). -/
def drawRasterised (ov : Overlay) (r : Rasterised) (x0 y0 : I32) (s : State) : Answer :=
  if textOversized r x0.toInt y0.toInt then .refused .textEndTooLarge
  else
    drawRect ov r.img x0.toInt y0.toInt (textEnd r x0.toInt y0.toInt).1 (textEnd r x0.toInt y0.toInt).2 s

/-- DRAW_TEXT (R140): rasterise, then composite. -/
def execDrawText (ov : Overlay) (text : String) (font : Font) (x0 y0 : I32) (s : State) : Answer :=
  drawRasterised ov (rasterize font text) x0 y0 s

end Sys2Proof.Machine
end

