-- ==== Sys2Proof/Machine/Init.lean ====
section
/-! DEFINITION. BEGIN (spec/42_command_encoder.md R176 to R178). -/

namespace Sys2Proof.Machine

/-- The reset pulse: low, one wait of the open duration, then high (R178). -/
def resetPulse : List Event := [.pin .low, .wait .tResetLow, .pin .high]

/-- The pin events of BEGIN: none without the pin, "software-only init" (R10, R178). -/
def pinEvents (c : Cfg) : List Event := if c.hasResetPin then resetPulse else []

/-- BEGIN's command frames up to the initial contrast, in R177's order. -/
def initFramesHead (c : Cfg) : List Event :=
  [encDisplayOff,
   encSetDisplayClockDiv (clockDiv c.dims),
   encSetMultiplexRatio (mux c.dims),
   encSetDisplayOffset 0x00,
   encSetStartLine 0,
   encSetChargePump (chargePumpEnabled c.vcc),
   encSetMemoryAddressingMode 0x00,
   encSetSegmentRemap 1,
   encSetComScanDirection 1,
   encSetComPinsConfiguration (comPins c.dims),
   encSetContrast (initContrast c.vcc)].map .cmd

/-- BEGIN's command frames after the initial contrast. -/
def initFramesTail (c : Cfg) : List Event :=
  [encSetPrechargePeriod (precharge c.vcc),
   encSetVcomhDeselectLevel 0x40,
   encResumeRamContentDisplay,
   encSetNormalDisplay,
   encDisplayOn].map .cmd

/-- BEGIN (R177). -/
def execBegin (s : State) : Answer :=
  let s := emitAll (pinEvents s.cfg) s
  let s := emitAll (initFramesHead s.cfg) s
  let s := s.withContrast (initContrast s.cfg.vcc)
  let s := emitAll (initFramesTail s.cfg) s
  let s := syncBody (clearBody s)
  complete (s.withBegun true)

end Sys2Proof.Machine
end

