-- ==== Sys2Proof/Machine/Contrast.lean ====
section
/-! DEFINITION. SET_CONTRAST, DIM and INVERT (spec/44_contrast_invert.md). -/

namespace Sys2Proof.Machine

/-- The report of a factor that clamping changed (R220, R221). -/
def clampReports (q : Rat) : List Event := if clampFactor q ≠ q then [.report .contrastClamped] else []

/-- SET_CONTRAST (R220). -/
def execSetContrast (factor : Rat) (s : State) : Answer :=
  let c := contrastByte (clampFactor factor)
  let s := emitAll (clampReports factor) s
  complete (emit (.cmd (encSetContrast c)) (s.withContrast c))

/-- The contrast DIM sends: 0 when on, the stored contrast when off (R224). -/
def dimContrast (on : Bool) (s : State) : Byte := if on then 0x00 else s.storedContrast

/-- DIM's body (R224). No state of the block is written. -/
def dimBody (on : Bool) (s : State) : State := emit (.cmd (encSetContrast (dimContrast on s))) s

/-- DIM (R224). -/
def execDim (on : Bool) (s : State) : Answer := complete (dimBody on s)

/-- INVERT's body (R225). -/
def invertBody (on : Bool) (s : State) : State := emit (.cmd (invertFrame on)) s

/-- INVERT (R225). -/
def execInvert (on : Bool) (s : State) : Answer := complete (invertBody on s)

end Sys2Proof.Machine
end

