-- ==== Sys2Proof/Machine/Framebuffer.lean ====
section
/-! DEFINITION. CLEAR, SYNC and SET_PIXEL (spec/40_framebuffer.md). -/

namespace Sys2Proof.Machine

/-- CLEAR (R110): the raster only, and no frame. -/
def execClear (s : State) : Answer := complete (clearBody s)

/-- SYNC (R118). -/
def execSync (s : State) : Answer := complete (syncBody s)

/-- The byte with bit y % 8 set or cleared: "OR for on, AND-with-complement for off" (R52, R113). -/
def setBit (v : Byte) (bit : Nat) (on : Bool) : Byte :=
  let m : Byte := 1 <<< bit
  if on then v ||| m else v &&& ~~~m

/-- SET_PIXEL (R113): one bit of the device buffer; the raster is not written. The write waits for a SyncBody to
overwrite it (R274). -/
def execSetPixel (on : Bool) (x y : I32) (s : State) : Answer :=
  if pixelInRange s.cfg.dims x.toInt y.toInt then
    match readBuffer (byteIndex s.cfg.dims x.toNat y.toNat) s with
    | .error f => .fault f
    | .ok v =>
      match writeBuffer (byteIndex s.cfg.dims x.toNat y.toNat) (setBit v (bitIndex y.toNat) on) s with
      | .error f => .fault f
      | .ok t => complete (t.withPixelPending true)
  else raiseError (.pixelRange x.toInt y.toInt) s

end Sys2Proof.Machine
end

