-- ==== Sys2Proof/Machine/Scroll.lean ====
section
/-! DEFINITION. SCROLL_HORIZONTAL, SCROLL_VERTICAL, SCROLL_DIAGONAL and STOP_SCROLL (spec/43_scroll.md). -/

namespace Sys2Proof.Machine

/-- ScrollPrologue (R200): SCROLL_DEACTIVATE, whether or not a scroll is active, then SyncBody. -/
def scrollPrologue (s : State) : State := syncBody (emit (.cmd encScrollDeactivate) s)

/-- A scroll start whose preconditions have passed: the prologue, the setup frames, SCROLL_ACTIVATE, and the ghost
mode (R200, R208). -/
def startScroll (setup : List Event) (mode : ScrollMode) (s : State) : State :=
  (emitAll (setup ++ [.cmd encScrollActivate]) (scrollPrologue s)).withScroll mode

/-- The horizontal setup frame (R201). -/
def horizontalSetup (hdir : HDir) (freq : Freq) (sp ep : I32) : List Event :=
  match hdir with
  | .right => [.cmd (encRightHorizontalScroll (low8 sp) freq (low8 ep))]
  | .left => [.cmd (encLeftHorizontalScroll (low8 sp) freq (low8 ep))]

/-- SCROLL_HORIZONTAL (R201, R202). -/
def execScrollHorizontal (hdir : HDir) (freq : Freq) (sp ep : I32) (s : State) : Answer :=
  if pageRangeOk s.cfg.dims sp.toInt ep.toInt then
    complete (startScroll (horizontalSetup hdir freq sp ep) .horizontal s)
  else raiseError (.pageRange sp.toInt ep.toInt) s

/-- The area frame and the diagonal setup frame, each operand as `low8` (R203, R80). -/
def diagonalSetup (hdir : HDir) (freq : Freq) (sp ep voff fixed rows : Byte) : List Event :=
  [.cmd (encSetVerticalScrollArea fixed rows),
   .cmd (match hdir with
    | .right => encVerticalAndRightHorizontalScroll sp freq ep voff
    | .left => encVerticalAndLeftHorizontalScroll sp freq ep voff)]

/-- SCROLL_DIAGONAL (R203, R204): voff is checked first, the page range only when `diagChecksPageRange` is true. -/
def execScrollDiagonal (hdir : HDir) (freq : Freq) (sp ep voff fixed rows : I32) (s : State) : Answer :=
  if vOffsetOk s.cfg.dims voff.toInt then
    if pageRangeOk s.cfg.dims sp.toInt ep.toInt || !Config.diagChecksPageRange then
      complete (startScroll (diagonalSetup hdir freq (low8 sp) (low8 ep) (low8 voff) (low8 fixed) (low8 rows))
        .diagonal s)
    else raiseError (.pageRange sp.toInt ep.toInt) s
  else raiseError (.vOffset voff.toInt) s

/-- The frames of a vertical scroll: the whole height, LEFT, pages 0..P−1 (R205). -/
def verticalSetup (d : Dims) (vdir : VDir) (freq : Freq) : List Event :=
  diagonalSetup .left freq 0x00 (low8Nat (pages d - 1)) (low8Nat (verticalOffset d vdir)) 0x00 (low8Nat (height d))

/-- SCROLL_VERTICAL (R205). -/
def execScrollVertical (vdir : VDir) (freq : Freq) (s : State) : Answer :=
  complete (startScroll (verticalSetup s.cfg.dims vdir freq) .vertical s)

/-- STOP_SCROLL's body (R206). -/
def stopScrollBody (s : State) : State := (scrollPrologue s).withScroll .inactive

/-- STOP_SCROLL (R206). -/
def execStopScroll (s : State) : Answer := complete (stopScrollBody s)

end Sys2Proof.Machine
end

