-- ==== Sys2Proof/Machine/Shutdown.lean ====
section
/-! DEFINITION. STOP (spec/45_shutdown.md R230). -/

namespace Sys2Proof.Machine

/-- STOP (R230): stop scroll, un-invert, un-dim, clear, sync, power off, each the body of the operation it names. -/
def execStop (s : State) : Answer :=
  let s := stopScrollBody s
  let s := invertBody false s
  let s := dimBody false s
  let s := syncBody (clearBody s)
  complete (emit (.cmd encDisplayOff) s)

end Sys2Proof.Machine
end

