-- ==== Sys2Proof/Machine/Dispatch.lean ====
section
/-! DEFINITION. One arm per constructor of Instr, each a direct call of its meaning. -/

namespace Sys2Proof.Machine

def exec (i : Instr) (s : State) : Host.Outcome State Fault Refusal :=
  match i with
  | .begin => Sys2Proof.Machine.execBegin s
  | .clear => Sys2Proof.Machine.execClear s
  | .sync => Sys2Proof.Machine.execSync s
  | .setPixel on x y => Sys2Proof.Machine.execSetPixel on x y s
  | .drawImage ov img x0 y0 x1 y1 => Sys2Proof.Machine.execDrawImage ov img x0 y0 x1 y1 s
  | .drawText ov text font x0 y0 => Sys2Proof.Machine.execDrawText ov text font x0 y0 s
  | .setContrast factor => Sys2Proof.Machine.execSetContrast factor s
  | .dim on => Sys2Proof.Machine.execDim on s
  | .invert on => Sys2Proof.Machine.execInvert on s
  | .scrollHorizontal hdir freq sp ep => Sys2Proof.Machine.execScrollHorizontal hdir freq sp ep s
  | .scrollVertical vdir freq => Sys2Proof.Machine.execScrollVertical vdir freq s
  | .scrollDiagonal hdir freq sp ep voff fixed rows => Sys2Proof.Machine.execScrollDiagonal hdir freq sp ep voff fixed rows s
  | .stopScroll => Sys2Proof.Machine.execStopScroll s
  | .stop => Sys2Proof.Machine.execStop s
  | .cmdDisplayOff => Sys2Proof.Machine.execCmdDisplayOff s
  | .cmdDisplayOn => Sys2Proof.Machine.execCmdDisplayOn s
  | .cmdSetDisplayClockDiv v => Sys2Proof.Machine.execCmdSetDisplayClockDiv v s
  | .cmdSetMultiplexRatio v => Sys2Proof.Machine.execCmdSetMultiplexRatio v s
  | .cmdSetDisplayOffset v => Sys2Proof.Machine.execCmdSetDisplayOffset v s
  | .cmdSetStartLine l => Sys2Proof.Machine.execCmdSetStartLine l s
  | .cmdSetChargePump en => Sys2Proof.Machine.execCmdSetChargePump en s
  | .cmdSetMemoryAddressingMode m => Sys2Proof.Machine.execCmdSetMemoryAddressingMode m s
  | .cmdSetSegmentRemap r => Sys2Proof.Machine.execCmdSetSegmentRemap r s
  | .cmdSetComScanDirection d => Sys2Proof.Machine.execCmdSetComScanDirection d s
  | .cmdSetComPinsConfiguration v => Sys2Proof.Machine.execCmdSetComPinsConfiguration v s
  | .cmdSetContrast c => Sys2Proof.Machine.execCmdSetContrast c s
  | .cmdSetPrechargePeriod v => Sys2Proof.Machine.execCmdSetPrechargePeriod v s
  | .cmdSetVcomhDeselectLevel v => Sys2Proof.Machine.execCmdSetVcomhDeselectLevel v s
  | .cmdResumeRamContentDisplay => Sys2Proof.Machine.execCmdResumeRamContentDisplay s
  | .cmdSetNormalDisplay => Sys2Proof.Machine.execCmdSetNormalDisplay s
  | .cmdSetInverseDisplay => Sys2Proof.Machine.execCmdSetInverseDisplay s
  | .cmdSetColumnAddress first last => Sys2Proof.Machine.execCmdSetColumnAddress first last s
  | .cmdSetPageAddress first last => Sys2Proof.Machine.execCmdSetPageAddress first last s
  | .cmdRightHorizontalScroll sp f ep => Sys2Proof.Machine.execCmdRightHorizontalScroll sp f ep s
  | .cmdLeftHorizontalScroll sp f ep => Sys2Proof.Machine.execCmdLeftHorizontalScroll sp f ep s
  | .cmdVerticalAndRightHorizontalScroll sp f ep vo => Sys2Proof.Machine.execCmdVerticalAndRightHorizontalScroll sp f ep vo s
  | .cmdVerticalAndLeftHorizontalScroll sp f ep vo => Sys2Proof.Machine.execCmdVerticalAndLeftHorizontalScroll sp f ep vo s
  | .cmdSetVerticalScrollArea fr sr => Sys2Proof.Machine.execCmdSetVerticalScrollArea fr sr s
  | .cmdScrollDeactivate => Sys2Proof.Machine.execCmdScrollDeactivate s
  | .cmdScrollActivate => Sys2Proof.Machine.execCmdScrollActivate s

end Sys2Proof.Machine
end

