-- ==== Sys2Proof/Machine/Step.lean ====
section
/-! DEFINITION. One step: the block accepts the operation at the head of its input and runs it to completion, with every
frame it emits (spec/10_state.md R21). With nothing handed over it waits (assumption 1). -/

namespace Sys2Proof.Machine

def step (s : State) : Host.Outcome State Fault Refusal :=
  match s.input with
  | [] => .next s
  | r :: rest =>
    match r.instr with
    | .error e => .refused (.badEncoding e)
    | .ok i => if unordered i r s then .refused .unorderedHosts else exec i (accept i r rest s)

/-- `s` with a table word handed over as the next operation. -/
def State.withFetchWord (s : State) (nbits w : Nat) : State := s.withInput (fetchRequest s nbits w :: s.input)

end Sys2Proof.Machine
end

