-- ==== Sys2Proof/Machine/Framing.lean ====
section
/-! DEFINITION. The block's output boundary: the calls it makes on the transport (spec/60_exceptions.md R256), the bus
form of a frame (spec/30_encoding.md R96, R97), the tagged byte stream the controller sees (R98), and the length
decoding of a raw command stream (R79). All of it is computed from the trace `out`. -/

namespace Sys2Proof.Machine

/-- A call on the transport device (R256). -/
inductive TransportCall where
  | sendCommand (op : Byte) (params : List Byte)
  | sendData (buffer : List Byte)
deriving DecidableEq, Repr

/-- The call an event stands for (R16); pin, wait and report events make none. -/
def callOf : Event → Option TransportCall
  | .cmd (op :: ps) => some (.sendCommand op ps)
  | .cmd [] => none
  | .data bs => some (.sendData bs)
  | .pin _ => none
  | .wait _ => none
  | .report _ => none

/-- One write on the wire: an I2C write with its bytes, or bytes shifted out under a D/C level. -/
inductive WireWrite where
  | i2c (bytes : List Byte)
  | spi (dc : Level) (bytes : List Byte)
deriving DecidableEq, Repr

/-- A frame on the bus: the control byte 0x00 or 0x40 before it (R96), or the D/C line low or high (R97). -/
def wireOf : Bus → Event → Option WireWrite
  | .i2c, .cmd bs => some (.i2c (0x00 :: bs))
  | .i2c, .data bs => some (.i2c (0x40 :: bs))
  | .spi, .cmd bs => some (.spi .low bs)
  | .spi, .data bs => some (.spi .high bs)
  | _, .pin _ => none
  | _, .wait _ => none
  | _, .report _ => none

/-- What the block has put on its bus, in trace order. -/
def State.wire (s : State) : List WireWrite := s.out.filterMap (wireOf s.cfg.bus)

/-- The tag under which the controller sees a byte: command or data (R98). -/
inductive WireTag where
  | command
  | data
deriving DecidableEq, Repr

/-- The tagged bytes of an event (R98). -/
def taggedOf : Event → List (WireTag × Byte)
  | .cmd bs => bs.map fun b => (.command, b)
  | .data bs => bs.map fun b => (.data, b)
  | .pin _ => []
  | .wait _ => []
  | .report _ => []

/-- The tagged byte stream of a trace (R98). -/
def taggedStream (es : List Event) : List (WireTag × Byte) := es.flatMap taggedOf

/-- The tagged bytes the controller reads from one write. -/
def taggedWrite : WireWrite → List (WireTag × Byte)
  | .i2c [] => []
  | .i2c (c :: bs) =>
    if c = 0x00 then bs.map fun b => (.command, b)
    else if c = 0x40 then bs.map fun b => (.data, b)
    else []
  | .spi .low bs => bs.map fun b => (.command, b)
  | .spi .high bs => bs.map fun b => (.data, b)

/-- What says whether a write's bytes are commands or data: the I2C control byte, if the write has one, or the SPI D/C
level (R96, R97). -/
inductive WireLead where
  | control (c : Option Byte)
  | level (dc : Level)
deriving DecidableEq, Repr

def WireWrite.lead : WireWrite → WireLead
  | .i2c bs => .control bs.head?
  | .spi dc _ => .level dc

/-- The bytes of a write that are the frame's, without the control byte. -/
def WireWrite.payload : WireWrite → List Byte
  | .i2c bs => bs.tail
  | .spi _ bs => bs

/-- `parts` is a way in which a transport may split the write `w` into several: each has the same control byte or D/C
level, and together they carry the frame's bytes (R98; spec/91_not_in_source.md N9; assumption 28). -/
def splitsInto (w : WireWrite) (parts : List WireWrite) : Bool :=
  (parts.all fun p => decide (p.lead = w.lead)) && decide (parts.flatMap WireWrite.payload = w.payload)

/-- The frames of a raw command byte stream, each as long as its opcode says (R79); `none` where a byte is no opcode
of the 26 or a frame is cut short. The first argument bounds the number of frames. -/
def readFrames : Nat → List Byte → Option (List (List Byte))
  | _, [] => some []
  | 0, _ :: _ => none
  | n + 1, op :: ps =>
    match frameLength op with
    | none => none
    | some k =>
      if k - 1 ≤ ps.length then (readFrames n (ps.drop (k - 1))).map fun fs => (op :: ps.take (k - 1)) :: fs
      else none

end Sys2Proof.Machine
end

