-- ==== Sys2Proof/Machine/Observe.lean ====
section
/-! DEFINITION. The observation of a run (spec/10_state.md R40): the raster and dbuf read out in full, storedContrast,
the trace, the ghost state, and every operation's result. Reading has no side effect (spec/20_memory.md R54). -/

namespace Sys2Proof.Machine

structure Observation where
  raster         : List Bool
  dbuf           : List Byte
  storedContrast : Byte
  out            : List Event
  ghostScroll    : ScrollMode
  ghostBegun     : Bool
  results        : List OpResult
deriving DecidableEq, Repr

/-- The raster in the order of its addresses, row by row. -/
def State.rasterBits (s : State) : List Bool :=
  (List.range (width s.cfg.dims * height s.cfg.dims)).map (Memory.read false s.raster)

/-- R40. -/
def State.observe (s : State) : Observation :=
  { raster := s.rasterBits
    dbuf := s.bufferBytes
    storedContrast := s.storedContrast
    out := s.out
    ghostScroll := s.ghostScroll
    ghostBegun := s.ghostBegun
    results := s.results.map (·.result) }

end Sys2Proof.Machine
end

