-- ==== Sys2Proof/Machine/Pseudo.lean ====
section
/-! DEFINITION. The pseudo-operations: the source calls that leave optional arguments out, each with its expansion into
one host operation (spec/30_encoding.md R86). -/

namespace Sys2Proof.Machine

/-- A source call with omitted arguments, in the order of R86's table. -/
inductive SourceCall where
  | drawImage (img : Image) (x0 y0 x1 y1 : I32)
  | drawText (text : String) (x0 y0 : I32)
  | drawTextFont (text : String) (x0 y0 : I32) (font : Font)
  | drawTextOverlay (text : String) (x0 y0 : I32) (ov : Overlay)
  | scrollHorizontal (dir : HDir)
  | scrollHorizontalFreq (dir : HDir) (freq : Freq)
  | scrollHorizontalPages (dir : HDir) (sp ep : I32)
  | scrollVertical (dir : VDir)
  | scrollDiagonal (h : HDir) (v : VDir)
  | scrollDiagonalFreq (h : HDir) (v : VDir) (freq : Freq)
  | scrollDiagonalParams (h : HDir) (v : VDir) (freq : Freq) (sp ep voff fixed rows : I32)
deriving DecidableEq, Repr

/-- A natural number as an `i32` operand. -/
def i32Nat (n : Nat) : I32 := BitVec.ofNat 32 n

/-- The last page P − 1 as an operand. -/
def lastPage (d : Dims) : I32 := i32Nat (pages d - 1)

/-- R86's default diagonal scroll: pages 0..P−1, offset vo(v), area (0, H). -/
def defaultDiagonal (d : Dims) (h : HDir) (v : VDir) (freq : Freq) : Instr :=
  .scrollDiagonal h freq 0 (lastPage d) (i32Nat (verticalOffset d v)) 0 (i32Nat (height d))

/-- The expansion of R86. -/
def expand (d : Dims) : SourceCall → Instr
  | .drawImage img x0 y0 x1 y1 => .drawImage Config.defaultOverlay img x0 y0 x1 y1
  | .drawText text x0 y0 => .drawText Config.defaultOverlay text Config.defaultFont x0 y0
  | .drawTextFont text x0 y0 font => .drawText Config.defaultOverlay text font x0 y0
  | .drawTextOverlay text x0 y0 ov => .drawText ov text Config.defaultFont x0 y0
  | .scrollHorizontal dir => .scrollHorizontal dir Config.defaultScrollFreq 0 (lastPage d)
  | .scrollHorizontalFreq dir freq => .scrollHorizontal dir freq 0 (lastPage d)
  | .scrollHorizontalPages dir sp ep => .scrollHorizontal dir Config.defaultScrollFreq sp ep
  | .scrollVertical dir => .scrollVertical dir Config.defaultScrollFreq
  | .scrollDiagonal h v => defaultDiagonal d h v Config.defaultScrollFreq
  | .scrollDiagonalFreq h v freq => defaultDiagonal d h v freq
  | .scrollDiagonalParams h _ freq sp ep voff fixed rows => .scrollDiagonal h freq sp ep voff fixed rows

end Sys2Proof.Machine
end

