-- ==== Sys2Proof/Safety.lean ====
section
/-! DEFINITION. What claims about the block are stated in: the invariant of its states, the trace an operation is
expected to leave, and the hazards of spec/70_reset_and_hazards.md R272 to R280, under which the device's reaction is
unspecified although the block's own state and trace are defined. -/

namespace Sys2Proof.Machine

/-! ## The invariant -/

/-- A byte list that starts with the opcode of one of the 26 commands and is as long as that opcode says (R79). -/
def wellSizedFrame : List Byte → Bool
  | [] => false
  | op :: ps => decide (frameLength op = some (ps.length + 1))

/-- A frame of one of the 26 commands with the operands that its rule gives it on a block of configuration `c` (R85,
R150 to R176): the literals and the init parameters, any contrast, the whole display's window, and for the scrolls what
their checks leave (R202, R204). -/
def givenFrame (c : Cfg) : List Byte → Bool
  | [op] => decide (op ∈ [(0xAE : Byte), 0xAF, 0x40, 0xA1, 0xC8, 0xA4, 0xA6, 0xA7, 0x2E, 0x2F])
  | [op, v] =>
    decide (op = 0x81)
      || decide ((op, v) ∈ [((0xD5 : Byte), clockDiv c.dims), (0xA8, mux c.dims), (0xD3, 0x00),
          (0x8D, if c.vcc = .internal then 0x14 else 0x10), (0x20, 0x00), (0xDA, comPins c.dims),
          (0xD9, precharge c.vcc), (0xDB, 0x40)])
  | [op, v, w] =>
    decide (op = 0xA3)
      || decide ((op, v, w) ∈ [((0x21 : Byte), (0x00 : Byte), low8Nat (width c.dims - 1)),
          (0x22, 0x00, low8Nat (pages c.dims - 1))])
  | [op, dummy, _, f, _, vo] =>
    decide (op ∈ [(0x29 : Byte), 0x2A]) && decide (dummy = 0x00) && decide (f.toNat < 8)
      && decide (vo.toNat < width c.dims)
  | [op, dummy, sp, f, ep, dummy', last] =>
    decide (op ∈ [(0x26 : Byte), 0x27]) && decide (dummy = 0x00) && decide (f.toNat < 8)
      && decide (sp.toNat ≤ ep.toNat) && decide (ep.toNat < pages c.dims) && decide (dummy' = 0x00)
      && decide (last = 0xFF)
  | _ => false

/-- An event that the block may emit: a command frame with the operands its rule gives (R85), a data frame of the whole
buffer (R119), or an event that is no frame. -/
def legalEvent (c : Cfg) : Event → Bool
  | .cmd bs => givenFrame c bs
  | .data bs => decide (bs.length = bufferSize c.dims)
  | .pin _ => true
  | .wait _ => true
  | .report _ => true

/-- Both memories are in canonical form and within their address spaces (R28, R30, R55), and every event of the trace
is one the block may emit. -/
abbrev State.Inv (s : State) : Prop :=
  Memory.wf false s.raster = true ∧ Memory.below (width s.cfg.dims * height s.cfg.dims) s.raster = true
    ∧ Memory.wf 0 s.dbuf = true ∧ Memory.below (bufferSize s.cfg.dims) s.dbuf = true
    ∧ (s.out.all (legalEvent s.cfg)) = true

/-! ## Expected traces -/

/-- No frame of another host waits for the bus. Every state of a run with one host is quiet. -/
abbrev State.Quiet (s : State) : Prop := s.intruders = []

/-- The trace that events leave when no other host's frame comes between: each event, and the report its draw gives
(R246, R252), the draws counted from `n`. -/
def traceFrom (n : Nat) : List Event → List Event
  | [] => []
  | e :: es => e :: (drawnReport n e ++ traceFrom (n + drawsOf e) es)

/-- The draws that events take. -/
def drawsIn (es : List Event) : Nat := (es.map drawsOf).sum

/-- `s` after the events `es` with nothing between them, and `Ok` returned. -/
def State.emittedOk (s : State) (es : List Event) : State :=
  ((s.addEvents (traceFrom s.draws es)).takeDraws (drawsIn es)).addResult s.host .ok

/-- The command frames and data frames of a trace, without pin, wait and report events. -/
def framesOf (es : List Event) : List Event := es.filter isFrame

/-- The command frames of a trace. -/
def commandsOf (es : List Event) : List (List Byte) :=
  es.filterMap fun e => match e with
    | .cmd bs => some bs
    | .data _ => none
    | .pin _ => none
    | .wait _ => none
    | .report _ => none

/-- The data frames of a trace. -/
def dataFramesOf (es : List Event) : List (List Byte) :=
  es.filterMap fun e => match e with
    | .cmd _ => none
    | .data bs => some bs
    | .pin _ => none
    | .wait _ => none
    | .report _ => none

/-- Two states agree on everything the rules give the block beside its trace: CFG, storedContrast, raster, dbuf and
ghost; and on the model's own mark of a SET_PIXEL write that a SyncBody will overwrite. -/
structure SamePicture (s t : State) : Prop where
  cfg            : t.cfg = s.cfg
  storedContrast : t.storedContrast = s.storedContrast
  raster         : t.raster = s.raster
  dbuf           : t.dbuf = s.dbuf
  ghostScroll    : t.ghostScroll = s.ghostScroll
  ghostBegun     : t.ghostBegun = s.ghostBegun
  pixelPending   : t.pixelPending = s.pixelPending

/-! ## What each operation may write -/

/-- The operations that write storedContrast (R25). -/
def writesContrast : Instr → Bool
  | .begin | .setContrast _ => true
  | .clear | .sync | .setPixel _ _ _ | .drawImage _ _ _ _ _ _ | .drawText _ _ _ _ _ | .dim _ | .invert _
  | .scrollHorizontal _ _ _ _ | .scrollVertical _ _ | .scrollDiagonal _ _ _ _ _ _ _ | .stopScroll | .stop
  | .cmdDisplayOff | .cmdDisplayOn | .cmdSetDisplayClockDiv _ | .cmdSetMultiplexRatio _ | .cmdSetDisplayOffset _
  | .cmdSetStartLine _ | .cmdSetChargePump _ | .cmdSetMemoryAddressingMode _ | .cmdSetSegmentRemap _
  | .cmdSetComScanDirection _ | .cmdSetComPinsConfiguration _ | .cmdSetContrast _ | .cmdSetPrechargePeriod _
  | .cmdSetVcomhDeselectLevel _ | .cmdResumeRamContentDisplay | .cmdSetNormalDisplay | .cmdSetInverseDisplay
  | .cmdSetColumnAddress _ _ | .cmdSetPageAddress _ _ | .cmdRightHorizontalScroll _ _ _
  | .cmdLeftHorizontalScroll _ _ _ | .cmdVerticalAndRightHorizontalScroll _ _ _ _
  | .cmdVerticalAndLeftHorizontalScroll _ _ _ _ | .cmdSetVerticalScrollArea _ _ | .cmdScrollDeactivate
  | .cmdScrollActivate => false

/-- The operations that write the raster (R28): CLEAR, DRAW_IMAGE, DRAW_TEXT, and BEGIN and STOP, which perform
CLEAR's body. -/
def writesRaster : Instr → Bool
  | .begin | .clear | .drawImage _ _ _ _ _ _ | .drawText _ _ _ _ _ | .stop => true
  | .sync | .setPixel _ _ _ | .setContrast _ | .dim _ | .invert _
  | .scrollHorizontal _ _ _ _ | .scrollVertical _ _ | .scrollDiagonal _ _ _ _ _ _ _ | .stopScroll
  | .cmdDisplayOff | .cmdDisplayOn | .cmdSetDisplayClockDiv _ | .cmdSetMultiplexRatio _ | .cmdSetDisplayOffset _
  | .cmdSetStartLine _ | .cmdSetChargePump _ | .cmdSetMemoryAddressingMode _ | .cmdSetSegmentRemap _
  | .cmdSetComScanDirection _ | .cmdSetComPinsConfiguration _ | .cmdSetContrast _ | .cmdSetPrechargePeriod _
  | .cmdSetVcomhDeselectLevel _ | .cmdResumeRamContentDisplay | .cmdSetNormalDisplay | .cmdSetInverseDisplay
  | .cmdSetColumnAddress _ _ | .cmdSetPageAddress _ _ | .cmdRightHorizontalScroll _ _ _
  | .cmdLeftHorizontalScroll _ _ _ | .cmdVerticalAndRightHorizontalScroll _ _ _ _
  | .cmdVerticalAndLeftHorizontalScroll _ _ _ _ | .cmdSetVerticalScrollArea _ _ | .cmdScrollDeactivate
  | .cmdScrollActivate => false

/-- `ghost.scroll` after an operation that succeeds, `m` being the mode before (R208). -/
def modeAfter (m : ScrollMode) : Instr → ScrollMode
  | .scrollHorizontal _ _ _ _ => .horizontal
  | .scrollVertical _ _ => .vertical
  | .scrollDiagonal _ _ _ _ _ _ _ => .diagonal
  | .stopScroll | .stop => .inactive
  | .begin | .clear | .sync | .setPixel _ _ _ | .drawImage _ _ _ _ _ _ | .drawText _ _ _ _ _ | .setContrast _
  | .dim _ | .invert _
  | .cmdDisplayOff | .cmdDisplayOn | .cmdSetDisplayClockDiv _ | .cmdSetMultiplexRatio _ | .cmdSetDisplayOffset _
  | .cmdSetStartLine _ | .cmdSetChargePump _ | .cmdSetMemoryAddressingMode _ | .cmdSetSegmentRemap _
  | .cmdSetComScanDirection _ | .cmdSetComPinsConfiguration _ | .cmdSetContrast _ | .cmdSetPrechargePeriod _
  | .cmdSetVcomhDeselectLevel _ | .cmdResumeRamContentDisplay | .cmdSetNormalDisplay | .cmdSetInverseDisplay
  | .cmdSetColumnAddress _ _ | .cmdSetPageAddress _ _ | .cmdRightHorizontalScroll _ _ _
  | .cmdLeftHorizontalScroll _ _ _ | .cmdVerticalAndRightHorizontalScroll _ _ _ _
  | .cmdVerticalAndLeftHorizontalScroll _ _ _ _ | .cmdSetVerticalScrollArea _ _ | .cmdScrollDeactivate
  | .cmdScrollActivate => m

/-! ## Hazards (R280) -/

inductive Hazard where
  /-- Frames sent while ghost.begun = false (R272). -/
  | beforeInit
  /-- A SyncBody outside a scroll start, STOP_SCROLL or STOP while ghost.scroll ≠ INACTIVE (R275). -/
  | dataDuringScroll
  /-- SET_PIXEL then SyncBody: the write is lost (R274). -/
  | pixelLost
deriving DecidableEq, Repr

/-- The operations that perform SyncBody when they complete. -/
def performsSync : Instr → Bool
  | .begin | .sync | .scrollHorizontal _ _ _ _ | .scrollVertical _ _ | .scrollDiagonal _ _ _ _ _ _ _ | .stopScroll
  | .stop => true
  | .clear | .setPixel _ _ _ | .drawImage _ _ _ _ _ _ | .drawText _ _ _ _ _ | .setContrast _ | .dim _ | .invert _
  | .cmdDisplayOff | .cmdDisplayOn | .cmdSetDisplayClockDiv _ | .cmdSetMultiplexRatio _ | .cmdSetDisplayOffset _
  | .cmdSetStartLine _ | .cmdSetChargePump _ | .cmdSetMemoryAddressingMode _ | .cmdSetSegmentRemap _
  | .cmdSetComScanDirection _ | .cmdSetComPinsConfiguration _ | .cmdSetContrast _ | .cmdSetPrechargePeriod _
  | .cmdSetVcomhDeselectLevel _ | .cmdResumeRamContentDisplay | .cmdSetNormalDisplay | .cmdSetInverseDisplay
  | .cmdSetColumnAddress _ _ | .cmdSetPageAddress _ _ | .cmdRightHorizontalScroll _ _ _
  | .cmdLeftHorizontalScroll _ _ _ | .cmdVerticalAndRightHorizontalScroll _ _ _ _
  | .cmdVerticalAndLeftHorizontalScroll _ _ _ _ | .cmdSetVerticalScrollArea _ _ | .cmdScrollDeactivate
  | .cmdScrollActivate => false

/-- The operations that deactivate a scroll before their data (R275). -/
def deactivatesFirst (i : Instr) : Bool :=
  performsSync i && decide (i ≠ .begin) && decide (i ≠ .sync)

/-- The operations that send a frame when they complete. The command encoder sends nothing (R82). -/
def sendsFrames : Instr → Bool
  | .begin | .sync | .setContrast _ | .dim _ | .invert _ | .scrollHorizontal _ _ _ _ | .scrollVertical _ _
  | .scrollDiagonal _ _ _ _ _ _ _ | .stopScroll | .stop => true
  | .clear | .setPixel _ _ _ | .drawImage _ _ _ _ _ _ | .drawText _ _ _ _ _
  | .cmdDisplayOff | .cmdDisplayOn | .cmdSetDisplayClockDiv _ | .cmdSetMultiplexRatio _ | .cmdSetDisplayOffset _
  | .cmdSetStartLine _ | .cmdSetChargePump _ | .cmdSetMemoryAddressingMode _ | .cmdSetSegmentRemap _
  | .cmdSetComScanDirection _ | .cmdSetComPinsConfiguration _ | .cmdSetContrast _ | .cmdSetPrechargePeriod _
  | .cmdSetVcomhDeselectLevel _ | .cmdResumeRamContentDisplay | .cmdSetNormalDisplay | .cmdSetInverseDisplay
  | .cmdSetColumnAddress _ _ | .cmdSetPageAddress _ _ | .cmdRightHorizontalScroll _ _ _
  | .cmdLeftHorizontalScroll _ _ _ | .cmdVerticalAndRightHorizontalScroll _ _ _ _
  | .cmdVerticalAndLeftHorizontalScroll _ _ _ _ | .cmdSetVerticalScrollArea _ _ | .cmdScrollDeactivate
  | .cmdScrollActivate => false

/-- A command of the command encoder, not a host operation. -/
def isCommand (i : Instr) : Bool := decide (i.port = .encoder)

/-- The checks of a scroll start pass on a display of dims `d` (R202, R204). Every other operation that sends frames has
no check before them. -/
def scrollChecksPass (d : Dims) : Instr → Bool
  | .scrollHorizontal _ _ sp ep => pageRangeOk d sp.toInt ep.toInt
  | .scrollDiagonal _ _ sp ep voff _ _ =>
    vOffsetOk d voff.toInt && (pageRangeOk d sp.toInt ep.toInt || !Config.diagChecksPageRange)
  | .begin | .clear | .sync | .setPixel _ _ _ | .drawImage _ _ _ _ _ _ | .drawText _ _ _ _ _ | .setContrast _
  | .dim _ | .invert _ | .scrollVertical _ _ | .stopScroll | .stop
  | .cmdDisplayOff | .cmdDisplayOn | .cmdSetDisplayClockDiv _ | .cmdSetMultiplexRatio _ | .cmdSetDisplayOffset _
  | .cmdSetStartLine _ | .cmdSetChargePump _ | .cmdSetMemoryAddressingMode _ | .cmdSetSegmentRemap _
  | .cmdSetComScanDirection _ | .cmdSetComPinsConfiguration _ | .cmdSetContrast _ | .cmdSetPrechargePeriod _
  | .cmdSetVcomhDeselectLevel _ | .cmdResumeRamContentDisplay | .cmdSetNormalDisplay | .cmdSetInverseDisplay
  | .cmdSetColumnAddress _ _ | .cmdSetPageAddress _ _ | .cmdRightHorizontalScroll _ _ _
  | .cmdLeftHorizontalScroll _ _ _ | .cmdVerticalAndRightHorizontalScroll _ _ _ _
  | .cmdVerticalAndLeftHorizontalScroll _ _ _ _ | .cmdSetVerticalScrollArea _ _ | .cmdScrollDeactivate
  | .cmdScrollActivate => true

/-- Running `i` in `s` performs SyncBody. A scroll start that fails a check ends in an error before it (R200, R248). -/
def runsSync (i : Instr) (s : State) : Bool := performsSync i && scrollChecksPass s.cfg.dims i

/-- Running `i` in `s` sends a frame. A scroll start that fails a check sends none (R202, R204, R248). -/
def runsFrames (i : Instr) (s : State) : Bool := sendsFrames i && scrollChecksPass s.cfg.dims i

/-- The hazards of running `i` in `s`: where the list is not empty, a claim about the device may not rest on `i`. -/
def hazards (i : Instr) (s : State) : List Hazard :=
  (if runsFrames i s && decide (i ≠ .begin) && !s.ghostBegun then [.beforeInit] else [])
    ++ (if runsSync i s && !deactivatesFirst i && decide (s.ghostScroll ≠ .inactive) then [.dataDuringScroll] else [])
    ++ (if runsSync i s && s.pixelPending then [.pixelLost] else [])

/-- A frame of the trace failed: the controller's state is unknown (R253). -/
def frameFailed (es : List Event) : Bool := decide (Event.report .transportFailure ∈ es)

end Sys2Proof.Machine
end

