-- ==== Sys2Proof/Certificates/Slice0/Obligations.lean ====
section
/-! DEFINITION. The statements for the provers, each from a numbered rule of spec/ or derived from the sections it
cites. The bytes in them are written out from the spec's tables, not through the model's encoder. -/

open Sys2Proof Sys2Proof.Machine

/-! ## The spec's tables, as literals -/

/-- R7: W, H and P of each dims, written out. -/
def Sys2Proof.Expected.geometry : Dims → Nat × Nat × Nat
  | .w128h64 => (128, 64, 8)
  | .w128h32 => (128, 32, 4)
  | .w96h16 => (96, 16, 2)

/-- R118: the two command frames before the data frame of a sync. -/
def Sys2Proof.Expected.window : Dims → List Event
  | .w128h64 => [.cmd [0x21, 0x00, 0x7F], .cmd [0x22, 0x00, 0x07]]
  | .w128h32 => [.cmd [0x21, 0x00, 0x7F], .cmd [0x22, 0x00, 0x03]]
  | .w96h16 => [.cmd [0x21, 0x00, 0x5F], .cmd [0x22, 0x00, 0x01]]

/-- R117, R118: the three frames of a SyncBody in a state, the data frame being pack(raster). -/
def Sys2Proof.Expected.sync (s : State) : List Event :=
  Sys2Proof.Expected.window s.cfg.dims
    ++ [.data ((List.range (bufferSize s.cfg.dims)).map (packByte s.cfg.dims s.pixel))]

/-- R117, R120: the three frames of a SyncBody of a cleared raster. -/
def Sys2Proof.Expected.blankSync (d : Dims) : List Event :=
  Sys2Proof.Expected.window d ++ [.data (List.replicate (bufferSize d) 0x00)]

/-- R177, R178: BEGIN's events up to SyncBody, with the parameters of R176. -/
def Sys2Proof.Expected.init (c : Cfg) : List Event :=
  (if c.hasResetPin then [.pin .low, .wait .tResetLow, .pin .high] else [])
    ++ [.cmd [0xAE],
        .cmd [0xD5, match c.dims with | .w128h64 => 0x80 | .w128h32 => 0x80 | .w96h16 => 0x60],
        .cmd [0xA8, match c.dims with | .w128h64 => 0x3F | .w128h32 => 0x1F | .w96h16 => 0x0F],
        .cmd [0xD3, 0x00],
        .cmd [0x40],
        .cmd [0x8D, match c.vcc with | .internal => 0x14 | .external => 0x10],
        .cmd [0x20, 0x00],
        .cmd [0xA1],
        .cmd [0xC8],
        .cmd [0xDA, match c.dims with | .w128h64 => 0x12 | .w128h32 => 0x02 | .w96h16 => 0x02],
        .cmd [0x81, match c.vcc with | .internal => 0xCF | .external => 0x9F],
        .cmd [0xD9, match c.vcc with | .internal => 0xF1 | .external => 0x22],
        .cmd [0xDB, 0x40],
        .cmd [0xA4],
        .cmd [0xA6],
        .cmd [0xAF]]

/-- The result of an error (R248): nothing but the result, and the calls chained to this one are dropped (R240; log
entry 10). ErrorChangesNothing says which requests those are. -/
def Sys2Proof.Expected.failed (e : OpError) (s : State) : State :=
  (s.withInput (dropChained s.host s.input)).addResult s.host (.error e)

/-- The state with dbuf = pack(raster) and no SET_PIXEL write left in it, everything else as it was (R117, R274). -/
def Sys2Proof.Expected.packed (s : State) : State :=
  (s.withBuffer (packBuffer s).dbuf).withPixelPending false

/-- The state with raster and dbuf all zero, everything else as it was (R110, R120). -/
def Sys2Proof.Expected.blank (s : State) : State :=
  ((s.withRaster (clearBody s).raster).withBuffer (packBuffer (clearBody s)).dbuf).withPixelPending false

/-- R252, R246: the report that an event has when its draw is number `n`: TRANSPORT_FAILURE exactly if it is a frame and
the draw says failed, WAIT_INTERRUPTED exactly if it is the wait and the draw says interrupted. -/
def Sys2Proof.Expected.report (n : Nat) : Event → List Event
  | .cmd _ => (match Config.transportOutcome n with | .failed => [.report .transportFailure] | .delivered => [])
  | .data _ => (match Config.transportOutcome n with | .failed => [.report .transportFailure] | .delivered => [])
  | .wait _ => (match Config.waitInterrupted n with | true => [.report .waitInterrupted] | false => [])
  | .pin _ => []
  | .report _ => []

/-- R205: the area frame and the setup frame of SCROLL_VERTICAL, the table written out. -/
def Sys2Proof.Expected.vertical (d : Dims) (vdir : VDir) (freq : Freq) : List Event :=
  match d, vdir with
  | .w128h64, .up => [.cmd [0xA3, 0x00, 0x40], .cmd [0x2A, 0x00, 0x00, freq.setWidth 8, 0x07, 0x01]]
  | .w128h64, .down => [.cmd [0xA3, 0x00, 0x40], .cmd [0x2A, 0x00, 0x00, freq.setWidth 8, 0x07, 0x3F]]
  | .w128h32, .up => [.cmd [0xA3, 0x00, 0x20], .cmd [0x2A, 0x00, 0x00, freq.setWidth 8, 0x03, 0x01]]
  | .w128h32, .down => [.cmd [0xA3, 0x00, 0x20], .cmd [0x2A, 0x00, 0x00, freq.setWidth 8, 0x03, 0x1F]]
  | .w96h16, .up => [.cmd [0xA3, 0x00, 0x10], .cmd [0x2A, 0x00, 0x00, freq.setWidth 8, 0x01, 0x01]]
  | .w96h16, .down => [.cmd [0xA3, 0x00, 0x10], .cmd [0x2A, 0x00, 0x00, freq.setWidth 8, 0x01, 0x0F]]

/-- R220, R222: the factor clamped to 0..1, and the contrast byte it gives. -/
def Sys2Proof.Expected.contrast (q : Rat) : Byte :=
  BitVec.ofInt 8 ((if q < 0 then 0 else if 1 < q then 1 else q) * 255 + 1 / 2 : Rat).floor

/-- The events that the rule of an operation lists, in its order, when the operation succeeds in state `s`: R118, R177,
R201, R203, R205, R206, R220, R224, R225, R230. CLEAR, SET_PIXEL, the two DRAWs and the
command encoder list none. -/
def Sys2Proof.Expected.events (s : State) : Instr → List Event
  | .begin => Sys2Proof.Expected.init s.cfg ++ Sys2Proof.Expected.blankSync s.cfg.dims
  | .sync => Sys2Proof.Expected.sync s
  | .setContrast q =>
    (if q < 0 ∨ 1 < q then [.report .contrastClamped] else []) ++ [.cmd [0x81, Sys2Proof.Expected.contrast q]]
  | .dim on => [.cmd [0x81, if on then 0x00 else s.storedContrast]]
  | .invert on => [.cmd [if on then 0xA7 else 0xA6]]
  | .scrollHorizontal hdir freq sp ep =>
    [.cmd [0x2E]] ++ Sys2Proof.Expected.sync s
      ++ [.cmd [match hdir with | .right => 0x26 | .left => 0x27, 0x00, sp.setWidth 8, freq.setWidth 8,
            ep.setWidth 8, 0x00, 0xFF],
          .cmd [0x2F]]
  | .scrollVertical vdir freq =>
    [.cmd [0x2E]] ++ Sys2Proof.Expected.sync s ++ Sys2Proof.Expected.vertical s.cfg.dims vdir freq ++ [.cmd [0x2F]]
  | .scrollDiagonal hdir freq sp ep voff fixed rows =>
    [.cmd [0x2E]] ++ Sys2Proof.Expected.sync s
      ++ [.cmd [0xA3, fixed.setWidth 8, rows.setWidth 8],
          .cmd [match hdir with | .right => 0x29 | .left => 0x2A, 0x00, sp.setWidth 8, freq.setWidth 8,
            ep.setWidth 8, voff.setWidth 8],
          .cmd [0x2F]]
  | .stopScroll => [.cmd [0x2E]] ++ Sys2Proof.Expected.sync s
  | .stop =>
    [.cmd [0x2E]] ++ Sys2Proof.Expected.sync s ++ [.cmd [0xA6], .cmd [0x81, s.storedContrast]]
      ++ Sys2Proof.Expected.blankSync s.cfg.dims ++ [.cmd [0xAE]]
  | .clear | .setPixel _ _ _ | .drawImage _ _ _ _ _ _ | .drawText _ _ _ _ _
  | .cmdDisplayOff | .cmdDisplayOn | .cmdSetDisplayClockDiv _ | .cmdSetMultiplexRatio _ | .cmdSetDisplayOffset _
  | .cmdSetStartLine _ | .cmdSetChargePump _ | .cmdSetMemoryAddressingMode _ | .cmdSetSegmentRemap _
  | .cmdSetComScanDirection _ | .cmdSetComPinsConfiguration _ | .cmdSetContrast _ | .cmdSetPrechargePeriod _
  | .cmdSetVcomhDeselectLevel _ | .cmdResumeRamContentDisplay | .cmdSetNormalDisplay | .cmdSetInverseDisplay
  | .cmdSetColumnAddress _ _ | .cmdSetPageAddress _ _ | .cmdRightHorizontalScroll _ _ _
  | .cmdLeftHorizontalScroll _ _ _ | .cmdVerticalAndRightHorizontalScroll _ _ _ _
  | .cmdVerticalAndLeftHorizontalScroll _ _ _ _ | .cmdSetVerticalScrollArea _ _ | .cmdScrollDeactivate
  | .cmdScrollActivate => []

/-! ## Encoding -/

/-- R70 to R74, R76 to R81: every well-formed instruction, at every value of its operands, is read back from the words
the encoder gives it. -/
def Obligations.DecodeOfEncodeIsTheInstr : Prop :=
  ∀ i : Instr, i.wellFormed = true → decode i.port (encode i) = .ok i

/-- R72, R83: a word that decodes gives a well-formed instruction of the interface it was read on. -/
def Obligations.DecodedInstrIsWellFormed : Prop :=
  ∀ (p : Port) (ws : List Slot) (i : Instr), decode p ws = .ok i → i.wellFormed = true ∧ i.port = p

/-- R83: the reserved host encodings. The clauses: a reserved tag; a mode byte with a bit set that R74 does not name
(SET_PIXEL, DIM and INVERT name bit 0, the two DRAWs bits 1..0, the scrolls bits 3..0); a mode byte on a tag that
has none. -/
def Obligations.ReservedHostEncodingsAreRefused : Prop :=
  ∀ (s : State) (r : Request) (rest : List Request) (tag m : Byte) (ws : List Slot),
    s.input = r :: rest → r.port = .host →
    (r.words = .byte tag :: ws → (tag = 0x00 ∨ 0x0F ≤ tag.toNat) →
      step s = .refused (.badEncoding (.reservedTag tag)))
    ∧ (r.words = .byte tag :: .byte m :: ws →
        ((tag ∈ [0x04, 0x08, 0x09] ∧ 2 ≤ m.toNat) ∨ (tag ∈ [0x05, 0x06] ∧ 4 ≤ m.toNat)
          ∨ (tag ∈ [0x0A, 0x0B, 0x0C] ∧ 16 ≤ m.toNat)) →
        step s = .refused (.badEncoding (.reservedModeBits m)))
    ∧ (r.words = .byte tag :: .byte m :: ws → tag ∈ [0x01, 0x02, 0x03, 0x07, 0x0D, 0x0E] →
        ∃ e, step s = .refused (.badEncoding e))

/-- R71, R74, R78: words written out from the spec's encodings decode to the instructions they stand for (the examples
of spec/95_test_vectors.md Q1 to Q5). -/
def Obligations.SpecWordsDecode : Prop :=
  decodeTableWord 8 0x01 = some .begin
  ∧ decodeTableWord 80 0x00000009_0000000A_01_04 = some (.setPixel true 10 9)
  ∧ decodeTableWord 80 0x00000003_00000000_06_0A = some (.scrollHorizontal .left 3 0 3)
  ∧ decodeTableWord 16 0x0F0B = some (.scrollVertical .down 7)
  ∧ decodeTableWord 16 0x0108 = some (.dim true)
  ∧ decodeTableWord 8 0xAE = some .cmdDisplayOff
  ∧ decodeTableWord 16 0xCF81 = some (.cmdSetContrast 0xCF)
  ∧ decodeTableWord 56 0xFF_00_05_07_02_00_27 = some (.cmdLeftHorizontalScroll 2 7 5)

/-- R78: the opcode bit forms of the 26 commands do not overlap: a byte that fits a command's form is that command's,
and a byte that fits none is no command's. -/
def Obligations.OpcodeBelongsToOneCommand : Prop :=
  ∀ op : Byte,
    (∀ n : CommandName, op &&& opcodeMask n = opcode n → commandOf op = some n)
    ∧ ((∀ n : CommandName, op &&& opcodeMask n ≠ opcode n) → commandOf op = none)

/-- R79: the opcode byte alone determines a frame's length, so the byte stream of any frames of the 26 commands splits
back into those frames. -/
def Obligations.CommandStreamSplitsIntoFrames : Prop :=
  ∀ fs : List (List Byte), (∀ f ∈ fs, wellSizedFrame f = true) →
    readFrames fs.length fs.flatten = some fs

/-! ## Steps -/

/-- R21: when the words at the head of the input decode to an instruction, a step is that instruction run to
completion. Around it the step takes the request off the input, notes the host it came from, and notes that host as
owner if the instruction is one that R259 counts (log entries 1 and 9), nothing else. -/
def Obligations.StepRunsTheDecodedInstr : Prop :=
  ∀ (s : State) (r : Request) (rest : List Request) (i : Instr),
    s.input = r :: rest → decode r.port r.words = .ok i → unordered i r s = false →
    let t : State := { s with
      input := rest
      host := r.host
      owner := if touchesPicture i then some r.host else s.owner }
    i.wellFormed = true ∧ step s = exec i t

/-- R220, R243: a SET_CONTRAST factor that is NaN or infinite is refused at the boundary. -/
def Obligations.FactorThatIsNoRationalIsRefused : Prop :=
  ∀ (s : State) (r : Request) (rest : List Request) (f : FactorSlot),
    s.input = r :: rest → r.port = .host → r.words = [.byte 0x07, .factor f] →
    f ∈ [.nan, .posInfinity, .negInfinity] → step s = .refused (.badEncoding .factorNotFinite)

/-- R259: when two hosts issue operations that touch raster, dbuf or storedContrast without an order between them, the
run is refused; INVERT alone never is (R258). -/
def Obligations.UnorderedHostsAreRefused : Prop :=
  ∀ (s : State) (r : Request) (rest : List Request) (i : Instr) (h : HostId),
    s.input = r :: rest → decode r.port r.words = .ok i → s.owner = some h → h ≠ r.host → r.ordered = false →
    (r.port = .host → (∀ on, i ≠ .invert on) → step s = .refused .unorderedHosts)
    ∧ ((∃ on, i = .invert on) → step s ≠ .refused .unorderedHosts)

/-- R55, R113, R248: no step faults, from any state: an operation either completes or ends in an error result, which
is a next state, and no byte index leaves the buffer. -/
def Obligations.NoStepFaults : Prop :=
  ∀ (s : State) (f : Fault), step s ≠ .fault f

/-! ## State -/

/-- R39: the values at construction, for every configuration. -/
def Obligations.ConstructionLeavesTheTableValues : Prop :=
  ∀ c : Cfg,
    (State.construct c).cfg = c
    ∧ (State.construct c).storedContrast = (match c.vcc with | .internal => 0xCF | .external => 0x9F)
    ∧ (∀ x y, (State.construct c).pixel x y = false)
    ∧ (∀ i, (State.construct c).bufferByte i = 0x00)
    ∧ (State.construct c).out = []
    ∧ (State.construct c).ghostScroll = .inactive
    ∧ (State.construct c).ghostBegun = false

/-- R23, R84, R244: CFG's layout (bit 4 hasResetPin, bit 3 bus, bit 2 vcc, bits 1..0 dims), and construction is refused
for dims = 3 and for nothing else. -/
def Obligations.ConstructionReadsTheCfgFields : Prop :=
  ∀ v : BitVec 5,
    (v.toNat % 4 = 3 → State.ofCfgBits v = .error .unsupportedDims)
    ∧ (v.toNat % 4 ≠ 3 → ∃ c : Cfg, State.ofCfgBits v = .ok (State.construct c) ∧ cfgBits c = v
        ∧ (c.dims = match v.toNat % 4 with | 0 => .w128h64 | 1 => .w128h32 | _ => .w96h16)
        ∧ (c.vcc = if v.toNat / 4 % 2 = 1 then .external else .internal)
        ∧ (c.bus = if v.toNat / 8 % 2 = 1 then .spi else .i2c)
        ∧ (c.hasResetPin = decide (v.toNat / 16 % 2 = 1)))

/-- The invariant holds at construction with every configuration, and so at reset. -/
def Obligations.ConstructedBlockMeetsTheInvariant : Prop :=
  (∀ c : Cfg, (State.construct c).Inv) ∧ State.reset.Inv

/-- R28, R30, R55, R79, R85, R119: every step keeps the invariant: raster and dbuf stay in canonical form and inside
their address spaces, and every event of the trace stays one the block may emit: a command frame of one of the 26
commands with the operands that its rule gives on this configuration, a data frame of P·W bytes, or no frame. -/
def Obligations.StepKeepsTheInvariant : Prop :=
  ∀ s t : State, s.Inv → step s = .next t → t.Inv

/-- R33, R23, R40: no step removes or reorders an event of the trace or an earlier result, and none writes CFG. -/
def Obligations.StepOnlyExtendsTheTrace : Prop :=
  ∀ s t : State, step s = .next t → s.out <+: t.out ∧ s.results <+: t.results ∧ t.cfg = s.cfg

/-- R23, R25, R28, R30, R35: the frame of every instruction. CFG is never written. storedContrast is written by
SET_CONTRAST and BEGIN alone; the raster by CLEAR, DRAW_IMAGE, DRAW_TEXT, and by BEGIN and STOP, which clear; dbuf by
SET_PIXEL and by every operation that performs SyncBody (and with it the model's mark of a waiting SET_PIXEL write, log
entry 29); ghost.begun by BEGIN alone; the encoder's last answer by the 26 commands alone (log entry 3). An operation
that sends no frame leaves the trace, and the model's draw counter, as they were. A scroll start that fails a check
performs no SyncBody and sends no frame (R202, R204, R248). -/
def Obligations.FrameOfEveryInstr : Prop :=
  ∀ (i : Instr) (s t : State), exec i s = .next t →
    t.cfg = s.cfg ∧ t.host = s.host ∧ t.owner = s.owner
    ∧ (writesContrast i = false → t.storedContrast = s.storedContrast)
    ∧ (writesRaster i = false → t.raster = s.raster)
    ∧ (runsSync i s = false → (∀ on x y, i ≠ .setPixel on x y) →
        t.dbuf = s.dbuf ∧ t.pixelPending = s.pixelPending)
    ∧ (isCommand i = false → t.encoded = s.encoded)
    ∧ (i ≠ .begin → t.ghostBegun = s.ghostBegun)
    ∧ (runsFrames i s = false → t.out = s.out ∧ t.draws = s.draws)

/-- R208: `ghost.scroll` after every instruction: the table's mode on success, unchanged on an error. -/
def Obligations.ScrollModeFollowsTheTable : Prop :=
  ∀ (i : Instr) (s t : State), exec i s = .next t →
    ((∃ e, t.results = s.results ++ [⟨s.host, .error e⟩]) → t.ghostScroll = s.ghostScroll)
    ∧ ((¬ ∃ e, t.results = s.results ++ [⟨s.host, .error e⟩]) → t.ghostScroll = modeAfter s.ghostScroll i)

/-- R248: an operation that ends in an error has no effect: raster, dbuf, storedContrast, ghost, CFG and out are
exactly as before. Of the waiting operations (R240; log entry 10), those of the failing host that are chained to the
failed call go, up to the first one that this host issued on its own; every other one stays, in its order. -/
def Obligations.ErrorChangesNothing : Prop :=
  ∀ (i : Instr) (s t : State) (e : OpError), exec i s = .next t →
    t.results = s.results ++ [⟨s.host, .error e⟩] →
    SamePicture s t ∧ t.out = s.out ∧ t.draws = s.draws ∧ t.encoded = s.encoded
    ∧ ∀ before after : List Request, s.input = before ++ after →
        (∀ r ∈ before, r.host = s.host → r.chained = true) →
        (after = [] ∨ ∃ r rest, after = r :: rest ∧ r.host = s.host ∧ r.chained = false) →
        t.input = before.filter (fun r => decide (r.host ≠ s.host)) ++ after

/-- R242: the same operation on the same arguments fails the same way in every state of the same configuration. -/
def Obligations.ErrorRepeatsOnTheSameArguments : Prop :=
  ∀ (i : Instr) (s s' t : State) (e : OpError), s'.cfg = s.cfg → exec i s = .next t →
    t.results = s.results ++ [⟨s.host, .error e⟩] →
    ∃ t', exec i s' = .next t' ∧ t'.results = s'.results ++ [⟨s'.host, .error e⟩]

/-- R241: the codes of the errors, and the operations that raise none: they answer a next state from every state, and
its last result is Ok. -/
def Obligations.OperationsThatRaiseNoError : Prop :=
  (∀ x0 y0 x1 y1, errorCode (.rect x0 y0 x1 y1) = 1) ∧ (∀ x y, errorCode (.pixelRange x y) = 2)
  ∧ (∀ sp ep, errorCode (.pageRange sp ep) = 3) ∧ (∀ v, errorCode (.vOffset v) = 4)
  ∧ ∀ (s : State) (q : Rat) (on : Bool) (v : VDir) (f : Freq),
      ∀ i ∈ [Instr.begin, .clear, .sync, .setContrast q, .dim on, .invert on, .scrollVertical v f, .stopScroll, .stop],
        ∃ t, exec i s = .next t ∧ t.results.getLast? = some ⟨s.host, .ok⟩

/-- R251: the block's state is written exactly as if every frame had been delivered: what an instruction leaves in
CFG, storedContrast, raster, dbuf and ghost does not depend on the draws. -/
def Obligations.PictureDoesNotDependOnTheDraws : Prop :=
  ∀ (i : Instr) (s t : State) (n : Nat), exec i s = .next t →
    ∃ t', exec i { s with draws := n } = .next t' ∧ SamePicture t t'

/-! ## Packing -/

/-- R46, R47: the pixel-to-buffer map and its inverse, a bijection from the W × H pixels onto the 8·P·W bits. -/
def Obligations.PixelMapIsABijection : Prop :=
  ∀ (d : Dims),
    (∀ x y, x < width d → y < height d →
      y / 8 < pages d ∧ byteIndex d x y = y / 8 * width d + x ∧ bitIndex y = y % 8
      ∧ byteIndex d x y < bufferSize d ∧ bitIndex y < 8
      ∧ byteIndex d x y % width d = x ∧ byteIndex d x y / width d * 8 + bitIndex y = y)
    ∧ (∀ i b, i < bufferSize d → b < 8 →
        i % width d < width d ∧ i / width d * 8 + b < height d
        ∧ byteIndex d (i % width d) (i / width d * 8 + b) = i ∧ bitIndex (i / width d * 8 + b) = b)

/-- R113: SET_PIXEL in range changes one bit of one byte, by OR or by AND with the complement, and nothing else of the
block but the model's mark that the write waits for a SyncBody (log entry 29); out of range it is ERR_PIXEL_RANGE and
no state changes, the host's chained calls being dropped (log entry 10). -/
def Obligations.SetPixelWritesOneBit : Prop :=
  ∀ (s : State) (on : Bool) (x y : I32), s.Inv →
    if 0 ≤ x.toInt ∧ x.toInt < (Sys2Proof.Expected.geometry s.cfg.dims).1
        ∧ 0 ≤ y.toInt ∧ y.toInt < (Sys2Proof.Expected.geometry s.cfg.dims).2.1 then
      ∃ m : List Host.Cell,
        exec (.setPixel on x y) s = .next (((s.withBuffer m).withPixelPending true).addResult s.host .ok)
        ∧ ∀ j, Memory.read 0 m j =
            if j = y.toInt.toNat / 8 * (Sys2Proof.Expected.geometry s.cfg.dims).1 + x.toInt.toNat then
              (if on then s.bufferByte j ||| ((1 : Byte) <<< (y.toInt.toNat % 8))
                else s.bufferByte j &&& ~~~((1 : Byte) <<< (y.toInt.toNat % 8)))
            else s.bufferByte j
    else
      exec (.setPixel on x y) s = .next (Sys2Proof.Expected.failed (.pixelRange x.toInt y.toInt) s)

/-- R114: the read-back law. -/
def Obligations.SetPixelReadsBack : Prop :=
  ∀ (s : State) (on : Bool) (x y : I32), s.Inv →
    0 ≤ x.toInt → x.toInt < width s.cfg.dims → 0 ≤ y.toInt → y.toInt < height s.cfg.dims →
    ∃ t, exec (.setPixel on x y) s = .next t
      ∧ (t.bufferByte (y.toInt.toNat / 8 * width s.cfg.dims + x.toInt.toNat)).getLsbD (y.toInt.toNat % 8) = on
      ∧ ∀ j b, ¬(j = y.toInt.toNat / 8 * width s.cfg.dims + x.toInt.toNat ∧ b = y.toInt.toNat % 8) →
          (t.bufferByte j).getLsbD b = (s.bufferByte j).getLsbD b

/-- R115: set, clear, set leaves dbuf as a single set does, and a repeated SET_PIXEL equals one. -/
def Obligations.SetPixelIsIdempotent : Prop :=
  ∀ (s : State) (on : Bool) (x y : I32), s.Inv →
    0 ≤ x.toInt → x.toInt < width s.cfg.dims → 0 ≤ y.toInt → y.toInt < height s.cfg.dims →
    (∃ t₁ t₂ t₃, exec (.setPixel true x y) s = .next t₁ ∧ exec (.setPixel false x y) t₁ = .next t₂
      ∧ exec (.setPixel true x y) t₂ = .next t₃ ∧ t₃.dbuf = t₁.dbuf)
    ∧ ∃ t₁ t₂, exec (.setPixel on x y) s = .next t₁ ∧ exec (.setPixel on x y) t₁ = .next t₂ ∧ t₂.dbuf = t₁.dbuf

/-- R110: CLEAR sets every raster pixel OFF and writes nothing else; no frame is emitted. -/
def Obligations.ClearTurnsEveryPixelOff : Prop :=
  ∀ s : State, ∃ m : List (Nat × Bool),
    exec .clear s = .next ((s.withRaster m).addResult s.host .ok)
    ∧ ∀ x y, x < (Sys2Proof.Expected.geometry s.cfg.dims).1 → y < (Sys2Proof.Expected.geometry s.cfg.dims).2.1 →
        (s.withRaster m).pixel x y = false

/-- R121: after any SyncBody, bit y % 8 of byte (y / 8)·W + x holds the raster bit of (x, y), whatever other hosts'
frames came between; SyncBody writes nothing else of the picture, and SYNC is SyncBody. -/
def Obligations.SyncPacksTheRaster : Prop :=
  ∀ s : State,
    (∀ x y, x < width s.cfg.dims → y < height s.cfg.dims →
      ((syncBody s).bufferByte (y / 8 * width s.cfg.dims + x)).getLsbD (y % 8) = s.pixel x y)
    ∧ (∀ i, bufferSize s.cfg.dims ≤ i → (syncBody s).bufferByte i = s.bufferByte i)
    ∧ (syncBody s).raster = s.raster ∧ (syncBody s).storedContrast = s.storedContrast
    ∧ (syncBody s).ghostScroll = s.ghostScroll ∧ (syncBody s).ghostBegun = s.ghostBegun
    ∧ exec .sync s = .next ((syncBody s).addResult s.host .ok)

/-- R118: SYNC with no other host's frame waiting: dbuf becomes pack(raster), and the column, page and data frames are
sent, each followed by its report if its draw failed; nothing else changes. -/
def Obligations.SyncSendsTheWholeBuffer : Prop :=
  ∀ s : State, s.Quiet →
    exec .sync s = .next ((Sys2Proof.Expected.packed s).emittedOk (Sys2Proof.Expected.sync s))
    ∧ ∀ i, (Sys2Proof.Expected.packed s).bufferByte i =
        if i < bufferSize s.cfg.dims then packByte s.cfg.dims s.pixel i else s.bufferByte i

/-- R120: CLEAR; SYNC from any state leaves dbuf all 0x00, and its one data frame is P·W zero bytes. -/
def Obligations.ClearThenSyncSendsZeros : Prop :=
  ∀ s : State, ∃ t u, exec .clear s = .next t ∧ exec .sync t = .next u
    ∧ (∀ i, i < (Sys2Proof.Expected.geometry s.cfg.dims).2.2 * (Sys2Proof.Expected.geometry s.cfg.dims).1 →
        u.bufferByte i = 0x00)
    ∧ dataFramesOf (u.out.drop s.out.length) = [List.replicate
        ((Sys2Proof.Expected.geometry s.cfg.dims).2.2 * (Sys2Proof.Expected.geometry s.cfg.dims).1) 0x00]

/-- R274, R280: a SET_PIXEL write is lost at SYNC: dbuf and everything sent are as if it had never been issued, and the
hazard is named for the SYNC that loses it and not for the one after. Whatever the instruction, the hazard is named
exactly if a waiting write (log entry 29) waits no longer after it, and then dbuf is the packed raster; where it is not
named, SET_PIXEL apart, a waiting write still stands in dbuf, after an operation that ends in an error too (R248). -/
def Obligations.SetPixelIsLostAtSync : Prop :=
  (∀ (s : State) (on : Bool) (x y : I32), s.Inv →
    0 ≤ x.toInt → x.toInt < width s.cfg.dims → 0 ≤ y.toInt → y.toInt < height s.cfg.dims →
    ∃ t u v, exec (.setPixel on x y) s = .next t ∧ exec .sync t = .next u ∧ exec .sync s = .next v
      ∧ u.dbuf = v.dbuf ∧ u.out = v.out
      ∧ Hazard.pixelLost ∈ hazards .sync t ∧ Hazard.pixelLost ∉ hazards .sync u)
  ∧ ∀ (i : Instr) (s t : State), exec i s = .next t →
    (Hazard.pixelLost ∈ hazards i s ↔ s.pixelPending = true ∧ t.pixelPending = false)
    ∧ (Hazard.pixelLost ∈ hazards i s →
        ∀ j, j < bufferSize s.cfg.dims → t.bufferByte j = packByte s.cfg.dims t.pixel j)
    ∧ (s.pixelPending = true → Hazard.pixelLost ∉ hazards i s → (∀ on x y, i ≠ .setPixel on x y) → t.dbuf = s.dbuf)

/-! ## Compositing -/

/-- R111: `classify` is ON exactly if r + g + b > 192, the sum exact. -/
def Obligations.ClassifyIsTheThreshold : Prop :=
  ∀ r g b : Byte, (classify ⟨r, g, b⟩ = true ↔ r.toNat + g.toNat + b.toNat > 192)

/-- R131: the full truth table of `compose`. -/
def Obligations.ComposeFollowsTheTruthTable : Prop :=
  [(false, false), (false, true), (true, false), (true, true)].map (fun p =>
      (compose .full p.1 p.2, compose .onPixels p.1 p.2, compose .offPixels p.1 p.2, compose .none p.1 p.2))
    = [(false, false, false, false), (true, true, false, false), (false, true, false, true),
       (true, true, true, true)]

/-- R135, R133, R134: DRAW_IMAGE of a well-formed rectangle whose size fits: exactly the pixels inside both the
rectangle and the display take `compose` of their old bit and the classified scaled pixel; nothing but the raster is
written and no frame is emitted. With NONE, whatever the size, nothing is written. -/
def Obligations.DrawImageCompositesTheClippedRect : Prop :=
  ∀ (s : State) (ov : Overlay) (img : Image) (x0 y0 x1 y1 : I32),
    x0.toInt < x1.toInt → y0.toInt < y1.toInt →
    exec (.drawImage .none img x0 y0 x1 y1) s = .next (s.addResult s.host .ok)
    ∧ (x1.toInt - x0.toInt ≤ 2147483647 → y1.toInt - y0.toInt ≤ 2147483647 →
      ∃ m : List (Nat × Bool),
        exec (.drawImage ov img x0 y0 x1 y1) s = .next ((s.withRaster m).addResult s.host .ok)
        ∧ ∀ x y : Nat, x < width s.cfg.dims → y < height s.cfg.dims →
            (s.withRaster m).pixel x y =
              if x0.toInt ≤ x ∧ x < x1.toInt ∧ y0.toInt ≤ y ∧ y < y1.toInt then
                compose ov (s.pixel x y) (classify (resampleAt img (x1.toInt - x0.toInt).toNat
                  (y1.toInt - y0.toInt).toNat (x - x0.toInt).toNat (y - y0.toInt).toNat))
              else s.pixel x y)

/-- R132, R133: the rectangle precondition, strict and signed, is checked before the overlay, so that a malformed
rectangle fails even with NONE, its error dropping the host's chained calls (log entry 10); a well-formed rectangle
whose exact width or height exceeds 2^31 − 1 is refused, unless the overlay is NONE. -/
def Obligations.DrawImageChecksTheRectFirst : Prop :=
  ∀ (s : State) (ov : Overlay) (img : Image) (x0 y0 x1 y1 : I32),
    ((x1.toInt ≤ x0.toInt ∨ y1.toInt ≤ y0.toInt) →
      exec (.drawImage ov img x0 y0 x1 y1) s =
        .next (Sys2Proof.Expected.failed (.rect x0.toInt y0.toInt x1.toInt y1.toInt) s))
    ∧ (x0.toInt < x1.toInt → y0.toInt < y1.toInt → ov ≠ .none →
        (2147483647 < x1.toInt - x0.toInt ∨ 2147483647 < y1.toInt - y0.toInt) →
        exec (.drawImage ov img x0 y0 x1 y1) s = .refused .rectTooLarge)

/-- R12: P-UNIFORM, the one property of the resampler: an image whose pixels all have one value is drawn with that
value at every size. -/
def Obligations.UniformImageResamplesToItself : Prop :=
  ∀ (img : Image) (p : Rgb), img.wellFormed = true → (∀ q ∈ img.pixels, q = p) →
    ∀ w h x y, resampleAt img w h x y = p

/-- R136, R137: what a uniform source does, in all six cases: the clipped pixels become the source's bit under FULL; an
all-ON source turns them ON under ON_PIXELS and an all-OFF one turns them OFF under OFF_PIXELS; the other two leave the
raster unchanged. No pixel outside the rectangle changes. Rests on P-UNIFORM (R12). -/
def Obligations.UniformSourcesObeyTheOverlay : Prop :=
  ∀ (s : State) (img : Image) (p : Rgb) (x0 y0 x1 y1 : I32),
    img.wellFormed = true → (∀ q ∈ img.pixels, q = p) →
    x0.toInt < x1.toInt → y0.toInt < y1.toInt →
    x1.toInt - x0.toInt ≤ 2147483647 → y1.toInt - y0.toInt ≤ 2147483647 →
    ∀ ov ∈ [Overlay.full, .onPixels, .offPixels],
      ∃ t, exec (.drawImage ov img x0 y0 x1 y1) s = .next t ∧ ∀ x y : Nat, x < width s.cfg.dims →
        y < height s.cfg.dims → t.pixel x y =
          if x0.toInt ≤ x ∧ x < x1.toInt ∧ y0.toInt ≤ y ∧ y < y1.toInt then
            (match ov, classify p with
            | .full, true => true
            | .full, false => false
            | .onPixels, true => true
            | .onPixels, false => s.pixel x y
            | .offPixels, true => s.pixel x y
            | .offPixels, false => false
            | .none, _ => s.pixel x y)
          else s.pixel x y

/-- R137, R138: ON_PIXELS never turns a pixel OFF and OFF_PIXELS never turns a pixel ON, whatever the image and
whatever the rectangle. -/
def Obligations.OverlayIsMonotone : Prop :=
  ∀ (s t : State) (img : Image) (x0 y0 x1 y1 : I32) (x y : Nat),
    x < width s.cfg.dims → y < height s.cfg.dims →
    (exec (.drawImage .onPixels img x0 y0 x1 y1) s = .next t → s.pixel x y = true → t.pixel x y = true)
    ∧ (exec (.drawImage .offPixels img x0 y0 x1 y1) s = .next t → s.pixel x y = false → t.pixel x y = false)

/-- R138: two DRAW_IMAGE operations whose clipped rectangles do not overlap commute. -/
def Obligations.DisjointDrawsCommute : Prop :=
  ∀ (s ta tab tb tba : State) (ova ovb : Overlay) (ia ib : Image) (ax0 ay0 ax1 ay1 bx0 by0 bx1 by1 : I32), s.Inv →
    (∀ x y : Nat, x < width s.cfg.dims → y < height s.cfg.dims →
      ¬((ax0.toInt ≤ x ∧ x < ax1.toInt ∧ ay0.toInt ≤ y ∧ y < ay1.toInt)
        ∧ (bx0.toInt ≤ x ∧ x < bx1.toInt ∧ by0.toInt ≤ y ∧ y < by1.toInt))) →
    exec (.drawImage ova ia ax0 ay0 ax1 ay1) s = .next ta → exec (.drawImage ovb ib bx0 by0 bx1 by1) ta = .next tab →
    exec (.drawImage ovb ib bx0 by0 bx1 by1) s = .next tb → exec (.drawImage ova ia ax0 ay0 ax1 ay1) tb = .next tba →
    tab.raster = tba.raster

/-- R140, R141, R13: DRAW_TEXT is the compositing of what `rasterize` answers, an image of the measured size, and only
that answer (T, mw, mh) enters. For EVERY answer: an end coordinate beyond 2^31 − 1 is refused (D35, log entry 21); an
empty measured box is ERR_RECT, which drops the host's chained calls (log entry 10); otherwise NONE writes nothing; a
box side beyond 2^31 − 1 is refused (R133); otherwise the text is composited onto the box (x0, y0), (x0 + mw, y0 + mh),
as DRAW_IMAGE does, and nothing else is written. What `rasterize` answers is a free value (log entry 12). -/
def Obligations.DrawTextCompositesTheRasterisedText : Prop :=
  ∀ (s : State) (ov : Overlay) (x0 y0 : I32),
    (∀ (text : String) (font : Font),
      exec (.drawText ov text font x0 y0) s = drawRasterised ov (rasterize font text) x0 y0 s
      ∧ (rasterize font text).img.width = (rasterize font text).width
      ∧ (rasterize font text).img.height = (rasterize font text).height
      ∧ (rasterize font text).img.pixels.length = (rasterize font text).width * (rasterize font text).height)
    ∧ ∀ (img : Image) (mw mh : Nat),
      if 2147483647 < x0.toInt + mw ∨ 2147483647 < y0.toInt + mh then
        drawRasterised ov ⟨img, mw, mh⟩ x0 y0 s = .refused .textEndTooLarge
      else if mw = 0 ∨ mh = 0 then
        drawRasterised ov ⟨img, mw, mh⟩ x0 y0 s = .next (Sys2Proof.Expected.failed (.rect x0.toInt y0.toInt
          (x0.toInt + mw) (y0.toInt + mh)) s)
      else if ov = .none then
        drawRasterised ov ⟨img, mw, mh⟩ x0 y0 s = .next (s.addResult s.host .ok)
      else if 2147483647 < mw ∨ 2147483647 < mh then
        drawRasterised ov ⟨img, mw, mh⟩ x0 y0 s = .refused .rectTooLarge
      else
        ∃ m : List (Nat × Bool),
          drawRasterised ov ⟨img, mw, mh⟩ x0 y0 s = .next ((s.withRaster m).addResult s.host .ok)
          ∧ ∀ x y : Nat, x < width s.cfg.dims → y < height s.cfg.dims →
              (s.withRaster m).pixel x y =
                if x0.toInt ≤ x ∧ x < x0.toInt + mw ∧ y0.toInt ≤ y ∧ y < y0.toInt + mh then
                  compose ov (s.pixel x y)
                    (classify (resampleAt img mw mh (x - x0.toInt).toNat (y - y0.toInt).toNat))
                else s.pixel x y

/-! ## BEGIN -/

/-- R177: BEGIN from any state: storedContrast becomes the initial contrast, the raster all OFF, dbuf all 0x00 and
ghost.begun true; CFG and ghost.scroll are unchanged. -/
def Obligations.BeginInitialisesTheState : Prop :=
  ∀ s : State, ∃ t, exec .begin s = .next t
    ∧ t.storedContrast = (match s.cfg.vcc with | .internal => 0xCF | .external => 0x9F)
    ∧ (∀ x y, x < width s.cfg.dims → y < height s.cfg.dims → t.pixel x y = false)
    ∧ (∀ i, i < bufferSize s.cfg.dims → t.bufferByte i = 0x00)
    ∧ t.ghostBegun = true ∧ t.ghostScroll = s.ghostScroll ∧ t.cfg = s.cfg

/-- R177, R178, R176, R246: BEGIN with no other host's frame waiting: the reset pulse if there is a pin, with a report
after the wait if it was interrupted, then the sixteen init frames and a SyncBody of a cleared raster, in this order
and with these bytes; nothing else changes. -/
def Obligations.BeginSendsTheInitSequence : Prop :=
  ∀ s : State, s.Quiet →
    exec .begin s = .next
      ((((Sys2Proof.Expected.blank s).withContrast
          (match s.cfg.vcc with | .internal => 0xCF | .external => 0x9F)).withBegun true).emittedOk
        (Sys2Proof.Expected.init s.cfg ++ Sys2Proof.Expected.blankSync s.cfg.dims))

/-- R179: the BEGIN command trace is a function of (dims, vcc) alone. -/
def Obligations.InitTraceDependsOnDimsAndVccOnly : Prop :=
  ∀ s s' t t' : State, s.Quiet → s'.Quiet → s'.cfg.dims = s.cfg.dims → s'.cfg.vcc = s.cfg.vcc →
    exec .begin s = .next t → exec .begin s' = .next t' →
    commandsOf (t'.out.drop s'.out.length) = commandsOf (t.out.drop s.out.length)

/-! ## Contrast, dim and invert -/

/-- R220, R221, R222: SET_CONTRAST clamps the factor to 0..1, reports it only if that changed it, converts it to
c = floor(fc · 255 + 1/2) with 0 ≤ c ≤ 255, stores c and sends it; nothing else changes. -/
def Obligations.SetContrastClampsRoundsAndSends : Prop :=
  ∀ (s : State) (q : Rat), s.Quiet →
    ∃ c : Byte, (c.toNat : Int) = ((if q < 0 then 0 else if 1 < q then 1 else q) * 255 + 1 / 2 : Rat).floor
      ∧ exec (.setContrast q) s = .next ((s.withContrast c).emittedOk
          ((if q < 0 ∨ 1 < q then [.report .contrastClamped] else []) ++ [.cmd [0x81, c]]))

/-- R224, R225: DIM sends contrast 0 or the stored contrast and INVERT sends inverse or normal display; neither
writes any state. -/
def Obligations.DimAndInvertSendOneFrame : Prop :=
  ∀ s : State, s.Quiet →
    exec (.dim true) s = .next (s.emittedOk [.cmd [0x81, 0x00]])
    ∧ exec (.dim false) s = .next (s.emittedOk [.cmd [0x81, s.storedContrast]])
    ∧ exec (.invert true) s = .next (s.emittedOk [.cmd [0xA7]])
    ∧ exec (.invert false) s = .next (s.emittedOk [.cmd [0xA6]])

/-- R226: DIM 1; DIM 0 from storedContrast = c sends contrast 0, then c, and leaves the state unchanged;
SET_CONTRAST f; DIM 1; DIM 0 ends with the contrast of f sent. -/
def Obligations.DimRoundTripRestoresTheContrast : Prop :=
  ∀ (s : State) (q : Rat), s.Quiet →
    (∃ t u, exec (.dim true) s = .next t ∧ exec (.dim false) t = .next u ∧ SamePicture s u
      ∧ commandsOf (u.out.drop s.out.length) = [[0x81, 0x00], [0x81, s.storedContrast]])
    ∧ ∃ t u v, exec (.setContrast q) s = .next t ∧ exec (.dim true) t = .next u ∧ exec (.dim false) u = .next v
      ∧ v.storedContrast = t.storedContrast
      ∧ (commandsOf v.out).getLast? = some [0x81, t.storedContrast]

/-! ## Scrolls -/

/-- R201, R202: SCROLL_HORIZONTAL with 0 ≤ sp ≤ ep < P, no other host's frame waiting: deactivate, sync, the 7-byte
setup frame of its direction, activate; dbuf is packed and ghost.scroll becomes HORIZONTAL. With any other page range,
from any state, it is ERR_PAGE_RANGE, nothing is emitted and no state changes, and the host's chained calls are dropped
(log entry 10). -/
def Obligations.ScrollHorizontalStartsOrFails : Prop :=
  ∀ (s : State) (hdir : HDir) (freq : Freq) (sp ep : I32),
    if 0 ≤ sp.toInt ∧ sp.toInt ≤ ep.toInt ∧ ep.toInt < (Sys2Proof.Expected.geometry s.cfg.dims).2.2 then
      s.Quiet →
      exec (.scrollHorizontal hdir freq sp ep) s = .next
        (((Sys2Proof.Expected.packed s).withScroll .horizontal).emittedOk
          ([.cmd [0x2E]] ++ Sys2Proof.Expected.sync s
            ++ [.cmd [match hdir with | .right => 0x26 | .left => 0x27, 0x00, sp.setWidth 8, freq.setWidth 8,
                  ep.setWidth 8, 0x00, 0xFF],
                .cmd [0x2F]]))
    else
      exec (.scrollHorizontal hdir freq sp ep) s =
        .next (Sys2Proof.Expected.failed (.pageRange sp.toInt ep.toInt) s)

/-- R203, R204: SCROLL_DIAGONAL. voff out of 0..W−1 is ERR_VOFFSET, before the page range is looked at; a bad page
range is ERR_PAGE_RANGE only when `diagChecksPageRange` is true; either error drops the host's chained calls (log
entry 10); otherwise, with no other host's frame waiting:
deactivate, sync, the area frame, the 6-byte setup frame of its direction, activate, each operand as its low 8 bits;
dbuf is packed and ghost.scroll becomes DIAGONAL. -/
def Obligations.ScrollDiagonalStartsOrFails : Prop :=
  ∀ (s : State) (hdir : HDir) (freq : Freq) (sp ep voff fixed rows : I32),
    if voff.toInt < 0 ∨ (Sys2Proof.Expected.geometry s.cfg.dims).1 ≤ voff.toInt then
      exec (.scrollDiagonal hdir freq sp ep voff fixed rows) s =
        .next (Sys2Proof.Expected.failed (.vOffset voff.toInt) s)
    else if Config.diagChecksPageRange = true
        ∧ ¬(0 ≤ sp.toInt ∧ sp.toInt ≤ ep.toInt ∧ ep.toInt < (Sys2Proof.Expected.geometry s.cfg.dims).2.2) then
      exec (.scrollDiagonal hdir freq sp ep voff fixed rows) s =
        .next (Sys2Proof.Expected.failed (.pageRange sp.toInt ep.toInt) s)
    else
      s.Quiet →
      exec (.scrollDiagonal hdir freq sp ep voff fixed rows) s = .next
        (((Sys2Proof.Expected.packed s).withScroll .diagonal).emittedOk
          ([.cmd [0x2E]] ++ Sys2Proof.Expected.sync s
            ++ [.cmd [0xA3, fixed.setWidth 8, rows.setWidth 8],
                .cmd [match hdir with | .right => 0x29 | .left => 0x2A, 0x00, sp.setWidth 8, freq.setWidth 8,
                  ep.setWidth 8, voff.setWidth 8],
                .cmd [0x2F]]))

/-- R205: SCROLL_VERTICAL, no other host's frame waiting: deactivate, sync, the full-height area, a LEFT setup frame
over all pages with offset 1 (UP) or H − 1 (DOWN), activate; dbuf is packed and ghost.scroll becomes VERTICAL. -/
def Obligations.ScrollVerticalScrollsTheWholeDisplay : Prop :=
  ∀ (s : State) (vdir : VDir) (freq : Freq), s.Quiet →
    exec (.scrollVertical vdir freq) s = .next
      (((Sys2Proof.Expected.packed s).withScroll .vertical).emittedOk
        ([.cmd [0x2E]] ++ Sys2Proof.Expected.sync s
          ++ Sys2Proof.Expected.vertical s.cfg.dims vdir freq ++ [.cmd [0x2F]]))

/-- R205, R87: SCROLL_VERTICAL sends exactly the bytes of `SCROLL_D LEFT, freq, 0, P-1, voff, 0, H`, from every state
and whatever `diagChecksPageRange` is, and leaves the same state but for ghost.scroll. -/
def Obligations.VerticalIsADiagonalSpecialisation : Prop :=
  ∀ (s : State) (vdir : VDir) (freq : Freq),
    ∃ t, exec (.scrollVertical vdir freq) s = .next t
      ∧ exec (.scrollDiagonal .left freq 0 (BitVec.ofNat 32 (pages s.cfg.dims - 1))
          (match vdir with | .up => 1 | .down => BitVec.ofNat 32 (height s.cfg.dims - 1)) 0
          (BitVec.ofNat 32 (height s.cfg.dims))) s = .next (t.withScroll .diagonal)

/-- R206: STOP_SCROLL, no other host's frame waiting: deactivate and sync, whether or not a scroll is active; dbuf is
packed and ghost.scroll becomes INACTIVE. -/
def Obligations.StopScrollDeactivatesAndSyncs : Prop :=
  ∀ s : State, s.Quiet →
    exec .stopScroll s = .next
      (((Sys2Proof.Expected.packed s).withScroll .inactive).emittedOk
        ([.cmd [0x2E]] ++ Sys2Proof.Expected.sync s))

/-! ## STOP -/

/-- R230: STOP with no other host's frame waiting: the ten frames in order, the first data frame the old raster, the
second the cleared one; the raster becomes all 0, dbuf all 0x00, ghost.scroll INACTIVE; nothing else changes. -/
def Obligations.StopShutsDownInOrder : Prop :=
  ∀ s : State, s.Quiet →
    exec .stop s = .next
      (((((s.withRaster (clearBody s).raster).withBuffer
          (packBuffer (clearBody (packBuffer s))).dbuf).withScroll .inactive).withPixelPending false).emittedOk
        ([.cmd [0x2E]] ++ Sys2Proof.Expected.sync s ++ [.cmd [0xA6], .cmd [0x81, s.storedContrast]]
          ++ Sys2Proof.Expected.blankSync s.cfg.dims ++ [.cmd [0xAE]]))
    ∧ (∀ x y, x < width s.cfg.dims → y < height s.cfg.dims → (clearBody s).pixel x y = false)
    ∧ ∀ i, i < bufferSize s.cfg.dims → (packBuffer (clearBody (packBuffer s))).bufferByte i = 0x00

/-- R231: after STOP the last command is DISPLAY_OFF, from every start state and whatever other hosts have waiting, and
within STOP no data frame follows it: nothing does but its own report. -/
def Obligations.StopEndsWithDisplayOff : Prop :=
  ∀ s : State,
    ∃ t es n, exec .stop s = .next t ∧ t.out = es ++ .cmd [0xAE] :: Sys2Proof.Expected.report n (.cmd [0xAE])
      ∧ (commandsOf t.out).getLast? = some [0xAE]

/-! ## The 26 commands -/

/-- R150 to R159, R82, R85: the display and hardware-configuration commands. Each is the pure mapping to these bytes, at
every operand: it answers them, emits nothing, and changes nothing else. -/
def Obligations.ConfigurationCommandsEncodeTheirBytes : Prop :=
  ∀ (s : State) (v : Byte) (l : BitVec 6) (en : Bool) (b : BitVec 1),
    ∀ p ∈ [(Instr.cmdDisplayOff, [0xAE]), (.cmdDisplayOn, [0xAF]), (.cmdSetDisplayClockDiv v, [0xD5, v]),
        (.cmdSetMultiplexRatio v, [0xA8, v]), (.cmdSetDisplayOffset v, [0xD3, v]),
        (.cmdSetStartLine l, [BitVec.ofNat 8 (0x40 + l.toNat)]),
        (.cmdSetChargePump en, [0x8D, if en then 0x14 else 0x10]), (.cmdSetMemoryAddressingMode v, [0x20, v]),
        (.cmdSetSegmentRemap b, [if b = 1 then 0xA1 else 0xA0]),
        (.cmdSetComScanDirection b, [if b = 1 then 0xC8 else 0xC0])],
      exec p.1 s = .next (s.withEncoded p.2)

/-- R160 to R168, R82, R85: the remaining configuration commands and the addressing commands. Each is the pure mapping
to these bytes, at every operand: it answers them, emits nothing, and changes nothing else. -/
def Obligations.PanelAndAddressCommandsEncodeTheirBytes : Prop :=
  ∀ (s : State) (v w : Byte),
    ∀ p ∈ [(Instr.cmdSetComPinsConfiguration v, [0xDA, v]), (.cmdSetContrast v, [0x81, v]),
        (.cmdSetPrechargePeriod v, [0xD9, v]), (.cmdSetVcomhDeselectLevel v, [0xDB, v]),
        (.cmdResumeRamContentDisplay, [0xA4]), (.cmdSetNormalDisplay, [0xA6]), (.cmdSetInverseDisplay, [0xA7]),
        (.cmdSetColumnAddress v w, [0x21, v, w]), (.cmdSetPageAddress v w, [0x22, v, w])],
      exec p.1 s = .next (s.withEncoded p.2)

/-- R169 to R175, R82, R85: the scroll commands. Each is the pure mapping to these bytes, at every operand: it answers
them, emits nothing, and changes nothing else. -/
def Obligations.ScrollCommandsEncodeTheirBytes : Prop :=
  ∀ (s : State) (sp ep vo w : Byte) (f : Freq),
    ∀ p ∈ [(Instr.cmdRightHorizontalScroll sp f ep, [0x26, 0x00, sp, f.setWidth 8, ep, 0x00, 0xFF]),
        (.cmdLeftHorizontalScroll sp f ep, [0x27, 0x00, sp, f.setWidth 8, ep, 0x00, 0xFF]),
        (.cmdVerticalAndRightHorizontalScroll sp f ep vo, [0x29, 0x00, sp, f.setWidth 8, ep, vo]),
        (.cmdVerticalAndLeftHorizontalScroll sp f ep vo, [0x2A, 0x00, sp, f.setWidth 8, ep, vo]),
        (.cmdSetVerticalScrollArea sp w, [0xA3, sp, w]), (.cmdScrollDeactivate, [0x2E]),
        (.cmdScrollActivate, [0x2F])],
      exec p.1 s = .next (s.withEncoded p.2)

/-! ## Transport, other hosts and framing -/

/-- R252, R246: what an emission adds to the trace: first the frames of other hosts that take the bus before it, if any
(log entry 8), none in a quiet state and else starting with a command frame; then the event; then its report, exactly if
its own draw, the next one, says failed or interrupted; and nothing after that. -/
def Obligations.FailedFrameIsReportedAtOnce : Prop :=
  ∀ (s : State) (e : Event),
    (emit e s).out = (busBoundary s).out ++ e :: Sys2Proof.Expected.report (busBoundary s).draws e
    ∧ (s.Quiet → busBoundary s = s)
    ∧ ∃ es, (busBoundary s).out = s.out ++ es ∧ (es = [] ∨ ∃ bs rest, es = .cmd bs :: rest)

/-- R60, R258: what a frame boundary can do: other hosts' waiting INVERT frames, 0xA6 or 0xA7, may come before an event,
with their reports; each host's requests keep their order and the running host's are untouched; the picture is. -/
def Obligations.OnlyInvertsComeBetweenFrames : Prop :=
  ∀ (s : State) (e : Event),
    SamePicture s (emit e s) ∧ (emit e s).input.Sublist s.input
    ∧ ((emit e s).input.filter fun r => decide (r.host = s.host)) = s.input.filter (fun r => decide (r.host = s.host))
    ∧ ∃ es n, (emit e s).out = s.out ++ es ++ e :: Sys2Proof.Expected.report n e
        ∧ ∀ f ∈ es, f = .cmd [0xA6] ∨ f = .cmd [0xA7] ∨ f = .report .transportFailure

/-- R58, R60: the events of one operation reach the trace in the order its rule lists them, from every state, whatever
other hosts' frames come between; and so do those of any list that is emitted. -/
def Obligations.FramesOfOneOperationKeepTheirOrder : Prop :=
  (∀ (i : Instr) (s t : State), exec i s = .next t →
    (¬ ∃ e, t.results = s.results ++ [⟨s.host, .error e⟩]) →
    (Sys2Proof.Expected.events s i).Sublist (t.out.drop s.out.length))
  ∧ ∀ (s : State) (es : List Event), es.Sublist ((emitAll es s).out.drop s.out.length)

/-- R96, R97: the bus form of a frame. The per-frame control byte and the D/C levels are the spec's decision D7; that
they are computed from the trace is log entry 28. -/
def Obligations.FramingOfOneFrame : Prop :=
  ∀ bs : List Byte,
    wireOf .i2c (.cmd bs) = some (.i2c ([0x00] ++ bs)) ∧ wireOf .i2c (.data bs) = some (.i2c ([0x40] ++ bs))
    ∧ wireOf .spi (.cmd bs) = some (.spi .low bs) ∧ wireOf .spi (.data bs) = some (.spi .high bs)

/-- R98: the tagged byte stream is the same for I2C and SPI, and it does not change if the transport splits each frame
into several writes. What counts as a split is the model's choice (log entry 28, DESIGN CHOICE): any number of writes of
any sizes, each under the frame's control byte or D/C level; and those are the spec's decision D7. -/
def Obligations.TaggedStreamIsTheSameOnBothBuses : Prop :=
  ∀ (b : Bus) (es : List Event),
    (es.filterMap (wireOf b)).flatMap taggedWrite = taggedStream es
    ∧ ∀ parts : List (List WireWrite),
        List.Forall₂ (fun w ps => splitsInto w ps = true) (es.filterMap (wireOf b)) parts →
        parts.flatten.flatMap taggedWrite = taggedStream es
end

