-- ==== Sys2Proof/Laws/Decode.lean ====
section
/-! SUPPORT. What the field decoders do on the words of the encoder (spec/30_encoding.md R71 to R74, R76): each operand
form reads back what was encoded. -/

namespace Sys2Proof

theorem i32OfBytes_extract (v : I32) : i32OfBytes (v.extractLsb' 0 8) (v.extractLsb' 8 8) (v.extractLsb' 16 8)
    (v.extractLsb' 24 8) = v := by
  unfold i32OfBytes
  rw [BitVec.extractLsb'_append_extractLsb'_eq_extractLsb' (by rfl),
    BitVec.extractLsb'_append_extractLsb'_eq_extractLsb' (by rfl),
    BitVec.extractLsb'_append_extractLsb'_eq_extractLsb' (by rfl)]
  simp

/-- An `i32` operand is read back, and the record goes on after its four bytes. -/
theorem takeI32_i32Slots (v : I32) (r : List Slot) : takeI32 (i32Slots v ++ r) = .ok (v, r) := by
  simp [i32Slots, takeI32, i32OfBytes_extract]

theorem takeI32_i32Slots_last (v : I32) : takeI32 (i32Slots v) = .ok (v, []) := by
  simpa using takeI32_i32Slots v []

theorem takeMode_modeFlag (on : Bool) (r : List Slot) :
    takeMode 1 (modeFlag on :: r) = .ok (zext8 (BitVec.ofBool on), r) := by
  cases on <;> rfl

theorem takeMode_modeScroll (d : Bool) (f : Freq) (r : List Slot) :
    takeMode 4 (modeScroll d f :: r) = .ok (zext8 (f ++ BitVec.ofBool d), r) := by
  have h : ∀ d : Bool, ∀ f : BitVec 3, (zext8 (f ++ BitVec.ofBool d)).toNat < 2 ^ 4 := by decide
  rw [modeScroll, takeMode, if_pos (h d f)]

theorem takeMode_overlayCode (ov : Overlay) (r : List Slot) :
    takeMode 2 (.byte (zext8 (overlayCode ov)) :: r) = .ok (zext8 (overlayCode ov), r) := by
  cases ov <;> rfl

theorem flag_of_mode (on : Bool) : (zext8 (BitVec.ofBool on)).getLsbD 0 = on := by cases on <;> rfl

theorem direction_of_mode (d : Bool) (f : Freq) : (zext8 (f ++ BitVec.ofBool d)).getLsbD 0 = d := by
  revert d f; decide

theorem freq_of_mode (d : Bool) (f : Freq) : (zext8 (f ++ BitVec.ofBool d)).extractLsb' 1 3 = f := by
  revert d f; decide

theorem freq_of_byte (f : Freq) : (zext8 f).extractLsb' 0 3 = f := by revert f; decide

theorem overlayOf_overlayCode (ov : Overlay) : overlayOf ((zext8 (overlayCode ov)).extractLsb' 0 2) = ov := by
  cases ov <;> rfl

theorem hdirOf_hdirCode (d : HDir) : hdirOf (hdirCode d) = d := by cases d <;> rfl

theorem vdirOf_vdirCode (d : VDir) : vdirOf (vdirCode d) = d := by cases d <;> rfl

theorem slotBytes_map (bs : List Byte) : slotBytes (bs.map .byte) = some bs := by
  induction bs with
  | nil => rfl
  | cons b bs ih => simp [slotBytes, ih]

/-- A record that is accepted to its end gives the instruction it was read into. -/
theorem finish_ok {i j : Instr} {r : List Slot} (h : finish i r = .ok j) : j = i := by
  cases r <;> cases h
  rfl

/-- An image that is accepted is well formed (R72). -/
theorem takeImage_ok {r r' : List Slot} {img : Image} (h : takeImage r = .ok (img, r')) : img.wellFormed = true := by
  unfold takeImage at h
  split at h
  · split at h
    · cases h; assumption
    · cases h
  · split at h
    · cases h; assumption
    · cases h
  · cases h

end Sys2Proof
end

