-- ==== Sys2Proof/Laws/State.lean ====
section
/-! SUPPORT. One lemma per field of State per update: what the update leaves in that field. -/

namespace Sys2Proof.Machine

@[simp] theorem State.withContrast_cfg (s : State) (c : Byte) : (s.withContrast c).cfg = s.cfg := rfl
@[simp] theorem State.withContrast_storedContrast (s : State) (c : Byte) : (s.withContrast c).storedContrast = c := rfl
@[simp] theorem State.withContrast_raster (s : State) (c : Byte) : (s.withContrast c).raster = s.raster := rfl
@[simp] theorem State.withContrast_dbuf (s : State) (c : Byte) : (s.withContrast c).dbuf = s.dbuf := rfl
@[simp] theorem State.withContrast_out (s : State) (c : Byte) : (s.withContrast c).out = s.out := rfl
@[simp] theorem State.withContrast_ghostScroll (s : State) (c : Byte) : (s.withContrast c).ghostScroll = s.ghostScroll := rfl
@[simp] theorem State.withContrast_ghostBegun (s : State) (c : Byte) : (s.withContrast c).ghostBegun = s.ghostBegun := rfl
@[simp] theorem State.withContrast_pixelPending (s : State) (c : Byte) : (s.withContrast c).pixelPending = s.pixelPending := rfl
@[simp] theorem State.withContrast_encoded (s : State) (c : Byte) : (s.withContrast c).encoded = s.encoded := rfl
@[simp] theorem State.withContrast_input (s : State) (c : Byte) : (s.withContrast c).input = s.input := rfl
@[simp] theorem State.withContrast_results (s : State) (c : Byte) : (s.withContrast c).results = s.results := rfl
@[simp] theorem State.withContrast_host (s : State) (c : Byte) : (s.withContrast c).host = s.host := rfl
@[simp] theorem State.withContrast_owner (s : State) (c : Byte) : (s.withContrast c).owner = s.owner := rfl
@[simp] theorem State.withContrast_draws (s : State) (c : Byte) : (s.withContrast c).draws = s.draws := rfl

@[simp] theorem State.withRaster_cfg (s : State) (m : List (Nat × Bool)) : (s.withRaster m).cfg = s.cfg := rfl
@[simp] theorem State.withRaster_storedContrast (s : State) (m : List (Nat × Bool)) : (s.withRaster m).storedContrast = s.storedContrast := rfl
@[simp] theorem State.withRaster_raster (s : State) (m : List (Nat × Bool)) : (s.withRaster m).raster = m := rfl
@[simp] theorem State.withRaster_dbuf (s : State) (m : List (Nat × Bool)) : (s.withRaster m).dbuf = s.dbuf := rfl
@[simp] theorem State.withRaster_out (s : State) (m : List (Nat × Bool)) : (s.withRaster m).out = s.out := rfl
@[simp] theorem State.withRaster_ghostScroll (s : State) (m : List (Nat × Bool)) : (s.withRaster m).ghostScroll = s.ghostScroll := rfl
@[simp] theorem State.withRaster_ghostBegun (s : State) (m : List (Nat × Bool)) : (s.withRaster m).ghostBegun = s.ghostBegun := rfl
@[simp] theorem State.withRaster_pixelPending (s : State) (m : List (Nat × Bool)) : (s.withRaster m).pixelPending = s.pixelPending := rfl
@[simp] theorem State.withRaster_encoded (s : State) (m : List (Nat × Bool)) : (s.withRaster m).encoded = s.encoded := rfl
@[simp] theorem State.withRaster_input (s : State) (m : List (Nat × Bool)) : (s.withRaster m).input = s.input := rfl
@[simp] theorem State.withRaster_results (s : State) (m : List (Nat × Bool)) : (s.withRaster m).results = s.results := rfl
@[simp] theorem State.withRaster_host (s : State) (m : List (Nat × Bool)) : (s.withRaster m).host = s.host := rfl
@[simp] theorem State.withRaster_owner (s : State) (m : List (Nat × Bool)) : (s.withRaster m).owner = s.owner := rfl
@[simp] theorem State.withRaster_draws (s : State) (m : List (Nat × Bool)) : (s.withRaster m).draws = s.draws := rfl

@[simp] theorem State.withBuffer_cfg (s : State) (m : List Host.Cell) : (s.withBuffer m).cfg = s.cfg := rfl
@[simp] theorem State.withBuffer_storedContrast (s : State) (m : List Host.Cell) : (s.withBuffer m).storedContrast = s.storedContrast := rfl
@[simp] theorem State.withBuffer_raster (s : State) (m : List Host.Cell) : (s.withBuffer m).raster = s.raster := rfl
@[simp] theorem State.withBuffer_dbuf (s : State) (m : List Host.Cell) : (s.withBuffer m).dbuf = m := rfl
@[simp] theorem State.withBuffer_out (s : State) (m : List Host.Cell) : (s.withBuffer m).out = s.out := rfl
@[simp] theorem State.withBuffer_ghostScroll (s : State) (m : List Host.Cell) : (s.withBuffer m).ghostScroll = s.ghostScroll := rfl
@[simp] theorem State.withBuffer_ghostBegun (s : State) (m : List Host.Cell) : (s.withBuffer m).ghostBegun = s.ghostBegun := rfl
@[simp] theorem State.withBuffer_pixelPending (s : State) (m : List Host.Cell) : (s.withBuffer m).pixelPending = s.pixelPending := rfl
@[simp] theorem State.withBuffer_encoded (s : State) (m : List Host.Cell) : (s.withBuffer m).encoded = s.encoded := rfl
@[simp] theorem State.withBuffer_input (s : State) (m : List Host.Cell) : (s.withBuffer m).input = s.input := rfl
@[simp] theorem State.withBuffer_results (s : State) (m : List Host.Cell) : (s.withBuffer m).results = s.results := rfl
@[simp] theorem State.withBuffer_host (s : State) (m : List Host.Cell) : (s.withBuffer m).host = s.host := rfl
@[simp] theorem State.withBuffer_owner (s : State) (m : List Host.Cell) : (s.withBuffer m).owner = s.owner := rfl
@[simp] theorem State.withBuffer_draws (s : State) (m : List Host.Cell) : (s.withBuffer m).draws = s.draws := rfl

@[simp] theorem State.withScroll_cfg (s : State) (m : ScrollMode) : (s.withScroll m).cfg = s.cfg := rfl
@[simp] theorem State.withScroll_storedContrast (s : State) (m : ScrollMode) : (s.withScroll m).storedContrast = s.storedContrast := rfl
@[simp] theorem State.withScroll_raster (s : State) (m : ScrollMode) : (s.withScroll m).raster = s.raster := rfl
@[simp] theorem State.withScroll_dbuf (s : State) (m : ScrollMode) : (s.withScroll m).dbuf = s.dbuf := rfl
@[simp] theorem State.withScroll_out (s : State) (m : ScrollMode) : (s.withScroll m).out = s.out := rfl
@[simp] theorem State.withScroll_ghostScroll (s : State) (m : ScrollMode) : (s.withScroll m).ghostScroll = m := rfl
@[simp] theorem State.withScroll_ghostBegun (s : State) (m : ScrollMode) : (s.withScroll m).ghostBegun = s.ghostBegun := rfl
@[simp] theorem State.withScroll_pixelPending (s : State) (m : ScrollMode) : (s.withScroll m).pixelPending = s.pixelPending := rfl
@[simp] theorem State.withScroll_encoded (s : State) (m : ScrollMode) : (s.withScroll m).encoded = s.encoded := rfl
@[simp] theorem State.withScroll_input (s : State) (m : ScrollMode) : (s.withScroll m).input = s.input := rfl
@[simp] theorem State.withScroll_results (s : State) (m : ScrollMode) : (s.withScroll m).results = s.results := rfl
@[simp] theorem State.withScroll_host (s : State) (m : ScrollMode) : (s.withScroll m).host = s.host := rfl
@[simp] theorem State.withScroll_owner (s : State) (m : ScrollMode) : (s.withScroll m).owner = s.owner := rfl
@[simp] theorem State.withScroll_draws (s : State) (m : ScrollMode) : (s.withScroll m).draws = s.draws := rfl

@[simp] theorem State.withBegun_cfg (s : State) (b : Bool) : (s.withBegun b).cfg = s.cfg := rfl
@[simp] theorem State.withBegun_storedContrast (s : State) (b : Bool) : (s.withBegun b).storedContrast = s.storedContrast := rfl
@[simp] theorem State.withBegun_raster (s : State) (b : Bool) : (s.withBegun b).raster = s.raster := rfl
@[simp] theorem State.withBegun_dbuf (s : State) (b : Bool) : (s.withBegun b).dbuf = s.dbuf := rfl
@[simp] theorem State.withBegun_out (s : State) (b : Bool) : (s.withBegun b).out = s.out := rfl
@[simp] theorem State.withBegun_ghostScroll (s : State) (b : Bool) : (s.withBegun b).ghostScroll = s.ghostScroll := rfl
@[simp] theorem State.withBegun_ghostBegun (s : State) (b : Bool) : (s.withBegun b).ghostBegun = b := rfl
@[simp] theorem State.withBegun_pixelPending (s : State) (b : Bool) : (s.withBegun b).pixelPending = s.pixelPending := rfl
@[simp] theorem State.withBegun_encoded (s : State) (b : Bool) : (s.withBegun b).encoded = s.encoded := rfl
@[simp] theorem State.withBegun_input (s : State) (b : Bool) : (s.withBegun b).input = s.input := rfl
@[simp] theorem State.withBegun_results (s : State) (b : Bool) : (s.withBegun b).results = s.results := rfl
@[simp] theorem State.withBegun_host (s : State) (b : Bool) : (s.withBegun b).host = s.host := rfl
@[simp] theorem State.withBegun_owner (s : State) (b : Bool) : (s.withBegun b).owner = s.owner := rfl
@[simp] theorem State.withBegun_draws (s : State) (b : Bool) : (s.withBegun b).draws = s.draws := rfl

@[simp] theorem State.withPixelPending_cfg (s : State) (b : Bool) : (s.withPixelPending b).cfg = s.cfg := rfl
@[simp] theorem State.withPixelPending_storedContrast (s : State) (b : Bool) : (s.withPixelPending b).storedContrast = s.storedContrast := rfl
@[simp] theorem State.withPixelPending_raster (s : State) (b : Bool) : (s.withPixelPending b).raster = s.raster := rfl
@[simp] theorem State.withPixelPending_dbuf (s : State) (b : Bool) : (s.withPixelPending b).dbuf = s.dbuf := rfl
@[simp] theorem State.withPixelPending_out (s : State) (b : Bool) : (s.withPixelPending b).out = s.out := rfl
@[simp] theorem State.withPixelPending_ghostScroll (s : State) (b : Bool) : (s.withPixelPending b).ghostScroll = s.ghostScroll := rfl
@[simp] theorem State.withPixelPending_ghostBegun (s : State) (b : Bool) : (s.withPixelPending b).ghostBegun = s.ghostBegun := rfl
@[simp] theorem State.withPixelPending_pixelPending (s : State) (b : Bool) : (s.withPixelPending b).pixelPending = b := rfl
@[simp] theorem State.withPixelPending_encoded (s : State) (b : Bool) : (s.withPixelPending b).encoded = s.encoded := rfl
@[simp] theorem State.withPixelPending_input (s : State) (b : Bool) : (s.withPixelPending b).input = s.input := rfl
@[simp] theorem State.withPixelPending_results (s : State) (b : Bool) : (s.withPixelPending b).results = s.results := rfl
@[simp] theorem State.withPixelPending_host (s : State) (b : Bool) : (s.withPixelPending b).host = s.host := rfl
@[simp] theorem State.withPixelPending_owner (s : State) (b : Bool) : (s.withPixelPending b).owner = s.owner := rfl
@[simp] theorem State.withPixelPending_draws (s : State) (b : Bool) : (s.withPixelPending b).draws = s.draws := rfl

@[simp] theorem State.withEncoded_cfg (s : State) (bs : List Byte) : (s.withEncoded bs).cfg = s.cfg := rfl
@[simp] theorem State.withEncoded_storedContrast (s : State) (bs : List Byte) : (s.withEncoded bs).storedContrast = s.storedContrast := rfl
@[simp] theorem State.withEncoded_raster (s : State) (bs : List Byte) : (s.withEncoded bs).raster = s.raster := rfl
@[simp] theorem State.withEncoded_dbuf (s : State) (bs : List Byte) : (s.withEncoded bs).dbuf = s.dbuf := rfl
@[simp] theorem State.withEncoded_out (s : State) (bs : List Byte) : (s.withEncoded bs).out = s.out := rfl
@[simp] theorem State.withEncoded_ghostScroll (s : State) (bs : List Byte) : (s.withEncoded bs).ghostScroll = s.ghostScroll := rfl
@[simp] theorem State.withEncoded_ghostBegun (s : State) (bs : List Byte) : (s.withEncoded bs).ghostBegun = s.ghostBegun := rfl
@[simp] theorem State.withEncoded_pixelPending (s : State) (bs : List Byte) : (s.withEncoded bs).pixelPending = s.pixelPending := rfl
@[simp] theorem State.withEncoded_encoded (s : State) (bs : List Byte) : (s.withEncoded bs).encoded = bs := rfl
@[simp] theorem State.withEncoded_input (s : State) (bs : List Byte) : (s.withEncoded bs).input = s.input := rfl
@[simp] theorem State.withEncoded_results (s : State) (bs : List Byte) : (s.withEncoded bs).results = s.results := rfl
@[simp] theorem State.withEncoded_host (s : State) (bs : List Byte) : (s.withEncoded bs).host = s.host := rfl
@[simp] theorem State.withEncoded_owner (s : State) (bs : List Byte) : (s.withEncoded bs).owner = s.owner := rfl
@[simp] theorem State.withEncoded_draws (s : State) (bs : List Byte) : (s.withEncoded bs).draws = s.draws := rfl

@[simp] theorem State.withInput_cfg (s : State) (q : List Request) : (s.withInput q).cfg = s.cfg := rfl
@[simp] theorem State.withInput_storedContrast (s : State) (q : List Request) : (s.withInput q).storedContrast = s.storedContrast := rfl
@[simp] theorem State.withInput_raster (s : State) (q : List Request) : (s.withInput q).raster = s.raster := rfl
@[simp] theorem State.withInput_dbuf (s : State) (q : List Request) : (s.withInput q).dbuf = s.dbuf := rfl
@[simp] theorem State.withInput_out (s : State) (q : List Request) : (s.withInput q).out = s.out := rfl
@[simp] theorem State.withInput_ghostScroll (s : State) (q : List Request) : (s.withInput q).ghostScroll = s.ghostScroll := rfl
@[simp] theorem State.withInput_ghostBegun (s : State) (q : List Request) : (s.withInput q).ghostBegun = s.ghostBegun := rfl
@[simp] theorem State.withInput_pixelPending (s : State) (q : List Request) : (s.withInput q).pixelPending = s.pixelPending := rfl
@[simp] theorem State.withInput_encoded (s : State) (q : List Request) : (s.withInput q).encoded = s.encoded := rfl
@[simp] theorem State.withInput_input (s : State) (q : List Request) : (s.withInput q).input = q := rfl
@[simp] theorem State.withInput_results (s : State) (q : List Request) : (s.withInput q).results = s.results := rfl
@[simp] theorem State.withInput_host (s : State) (q : List Request) : (s.withInput q).host = s.host := rfl
@[simp] theorem State.withInput_owner (s : State) (q : List Request) : (s.withInput q).owner = s.owner := rfl
@[simp] theorem State.withInput_draws (s : State) (q : List Request) : (s.withInput q).draws = s.draws := rfl

@[simp] theorem State.addResult_cfg (s : State) (h : HostId) (r : OpResult) : (s.addResult h r).cfg = s.cfg := rfl
@[simp] theorem State.addResult_storedContrast (s : State) (h : HostId) (r : OpResult) : (s.addResult h r).storedContrast = s.storedContrast := rfl
@[simp] theorem State.addResult_raster (s : State) (h : HostId) (r : OpResult) : (s.addResult h r).raster = s.raster := rfl
@[simp] theorem State.addResult_dbuf (s : State) (h : HostId) (r : OpResult) : (s.addResult h r).dbuf = s.dbuf := rfl
@[simp] theorem State.addResult_out (s : State) (h : HostId) (r : OpResult) : (s.addResult h r).out = s.out := rfl
@[simp] theorem State.addResult_ghostScroll (s : State) (h : HostId) (r : OpResult) : (s.addResult h r).ghostScroll = s.ghostScroll := rfl
@[simp] theorem State.addResult_ghostBegun (s : State) (h : HostId) (r : OpResult) : (s.addResult h r).ghostBegun = s.ghostBegun := rfl
@[simp] theorem State.addResult_pixelPending (s : State) (h : HostId) (r : OpResult) : (s.addResult h r).pixelPending = s.pixelPending := rfl
@[simp] theorem State.addResult_encoded (s : State) (h : HostId) (r : OpResult) : (s.addResult h r).encoded = s.encoded := rfl
@[simp] theorem State.addResult_input (s : State) (h : HostId) (r : OpResult) : (s.addResult h r).input = s.input := rfl
@[simp] theorem State.addResult_results (s : State) (h : HostId) (r : OpResult) : (s.addResult h r).results = s.results ++ [⟨h, r⟩] := rfl
@[simp] theorem State.addResult_host (s : State) (h : HostId) (r : OpResult) : (s.addResult h r).host = s.host := rfl
@[simp] theorem State.addResult_owner (s : State) (h : HostId) (r : OpResult) : (s.addResult h r).owner = s.owner := rfl
@[simp] theorem State.addResult_draws (s : State) (h : HostId) (r : OpResult) : (s.addResult h r).draws = s.draws := rfl

@[simp] theorem State.addEvents_cfg (s : State) (es : List Event) : (s.addEvents es).cfg = s.cfg := rfl
@[simp] theorem State.addEvents_storedContrast (s : State) (es : List Event) : (s.addEvents es).storedContrast = s.storedContrast := rfl
@[simp] theorem State.addEvents_raster (s : State) (es : List Event) : (s.addEvents es).raster = s.raster := rfl
@[simp] theorem State.addEvents_dbuf (s : State) (es : List Event) : (s.addEvents es).dbuf = s.dbuf := rfl
@[simp] theorem State.addEvents_out (s : State) (es : List Event) : (s.addEvents es).out = s.out ++ es := rfl
@[simp] theorem State.addEvents_ghostScroll (s : State) (es : List Event) : (s.addEvents es).ghostScroll = s.ghostScroll := rfl
@[simp] theorem State.addEvents_ghostBegun (s : State) (es : List Event) : (s.addEvents es).ghostBegun = s.ghostBegun := rfl
@[simp] theorem State.addEvents_pixelPending (s : State) (es : List Event) : (s.addEvents es).pixelPending = s.pixelPending := rfl
@[simp] theorem State.addEvents_encoded (s : State) (es : List Event) : (s.addEvents es).encoded = s.encoded := rfl
@[simp] theorem State.addEvents_input (s : State) (es : List Event) : (s.addEvents es).input = s.input := rfl
@[simp] theorem State.addEvents_results (s : State) (es : List Event) : (s.addEvents es).results = s.results := rfl
@[simp] theorem State.addEvents_host (s : State) (es : List Event) : (s.addEvents es).host = s.host := rfl
@[simp] theorem State.addEvents_owner (s : State) (es : List Event) : (s.addEvents es).owner = s.owner := rfl
@[simp] theorem State.addEvents_draws (s : State) (es : List Event) : (s.addEvents es).draws = s.draws := rfl

@[simp] theorem State.takeDraws_cfg (s : State) (k : Nat) : (s.takeDraws k).cfg = s.cfg := rfl
@[simp] theorem State.takeDraws_storedContrast (s : State) (k : Nat) : (s.takeDraws k).storedContrast = s.storedContrast := rfl
@[simp] theorem State.takeDraws_raster (s : State) (k : Nat) : (s.takeDraws k).raster = s.raster := rfl
@[simp] theorem State.takeDraws_dbuf (s : State) (k : Nat) : (s.takeDraws k).dbuf = s.dbuf := rfl
@[simp] theorem State.takeDraws_out (s : State) (k : Nat) : (s.takeDraws k).out = s.out := rfl
@[simp] theorem State.takeDraws_ghostScroll (s : State) (k : Nat) : (s.takeDraws k).ghostScroll = s.ghostScroll := rfl
@[simp] theorem State.takeDraws_ghostBegun (s : State) (k : Nat) : (s.takeDraws k).ghostBegun = s.ghostBegun := rfl
@[simp] theorem State.takeDraws_pixelPending (s : State) (k : Nat) : (s.takeDraws k).pixelPending = s.pixelPending := rfl
@[simp] theorem State.takeDraws_encoded (s : State) (k : Nat) : (s.takeDraws k).encoded = s.encoded := rfl
@[simp] theorem State.takeDraws_input (s : State) (k : Nat) : (s.takeDraws k).input = s.input := rfl
@[simp] theorem State.takeDraws_results (s : State) (k : Nat) : (s.takeDraws k).results = s.results := rfl
@[simp] theorem State.takeDraws_host (s : State) (k : Nat) : (s.takeDraws k).host = s.host := rfl
@[simp] theorem State.takeDraws_owner (s : State) (k : Nat) : (s.takeDraws k).owner = s.owner := rfl
@[simp] theorem State.takeDraws_draws (s : State) (k : Nat) : (s.takeDraws k).draws = s.draws + k := rfl

@[simp] theorem State.mapRaster_raster (s : State) (g : Nat → Nat → Bool → Bool) :
    (s.mapRaster g).raster = Memory.rewrite false (width s.cfg.dims * height s.cfg.dims)
      (fun a old => g (a % width s.cfg.dims) (a / width s.cfg.dims) old) s.raster := rfl
@[simp] theorem State.mapRaster_cfg (s : State) (g : Nat → Nat → Bool → Bool) : (s.mapRaster g).cfg = s.cfg := rfl
@[simp] theorem State.mapRaster_storedContrast (s : State) (g : Nat → Nat → Bool → Bool) : (s.mapRaster g).storedContrast = s.storedContrast := rfl
@[simp] theorem State.mapRaster_dbuf (s : State) (g : Nat → Nat → Bool → Bool) : (s.mapRaster g).dbuf = s.dbuf := rfl
@[simp] theorem State.mapRaster_out (s : State) (g : Nat → Nat → Bool → Bool) : (s.mapRaster g).out = s.out := rfl
@[simp] theorem State.mapRaster_ghostScroll (s : State) (g : Nat → Nat → Bool → Bool) : (s.mapRaster g).ghostScroll = s.ghostScroll := rfl
@[simp] theorem State.mapRaster_ghostBegun (s : State) (g : Nat → Nat → Bool → Bool) : (s.mapRaster g).ghostBegun = s.ghostBegun := rfl
@[simp] theorem State.mapRaster_pixelPending (s : State) (g : Nat → Nat → Bool → Bool) : (s.mapRaster g).pixelPending = s.pixelPending := rfl
@[simp] theorem State.mapRaster_encoded (s : State) (g : Nat → Nat → Bool → Bool) : (s.mapRaster g).encoded = s.encoded := rfl
@[simp] theorem State.mapRaster_input (s : State) (g : Nat → Nat → Bool → Bool) : (s.mapRaster g).input = s.input := rfl
@[simp] theorem State.mapRaster_results (s : State) (g : Nat → Nat → Bool → Bool) : (s.mapRaster g).results = s.results := rfl
@[simp] theorem State.mapRaster_host (s : State) (g : Nat → Nat → Bool → Bool) : (s.mapRaster g).host = s.host := rfl
@[simp] theorem State.mapRaster_owner (s : State) (g : Nat → Nat → Bool → Bool) : (s.mapRaster g).owner = s.owner := rfl
@[simp] theorem State.mapRaster_draws (s : State) (g : Nat → Nat → Bool → Bool) : (s.mapRaster g).draws = s.draws := rfl

@[simp] theorem clearBody_cfg (s : State) : (clearBody s).cfg = s.cfg := rfl
@[simp] theorem clearBody_storedContrast (s : State) : (clearBody s).storedContrast = s.storedContrast := rfl
@[simp] theorem clearBody_dbuf (s : State) : (clearBody s).dbuf = s.dbuf := rfl
@[simp] theorem clearBody_out (s : State) : (clearBody s).out = s.out := rfl
@[simp] theorem clearBody_ghostScroll (s : State) : (clearBody s).ghostScroll = s.ghostScroll := rfl
@[simp] theorem clearBody_ghostBegun (s : State) : (clearBody s).ghostBegun = s.ghostBegun := rfl
@[simp] theorem clearBody_pixelPending (s : State) : (clearBody s).pixelPending = s.pixelPending := rfl
@[simp] theorem clearBody_encoded (s : State) : (clearBody s).encoded = s.encoded := rfl
@[simp] theorem clearBody_input (s : State) : (clearBody s).input = s.input := rfl
@[simp] theorem clearBody_results (s : State) : (clearBody s).results = s.results := rfl
@[simp] theorem clearBody_host (s : State) : (clearBody s).host = s.host := rfl
@[simp] theorem clearBody_owner (s : State) : (clearBody s).owner = s.owner := rfl
@[simp] theorem clearBody_draws (s : State) : (clearBody s).draws = s.draws := rfl

@[simp] theorem packBuffer_cfg (s : State) : (packBuffer s).cfg = s.cfg := rfl
@[simp] theorem packBuffer_storedContrast (s : State) : (packBuffer s).storedContrast = s.storedContrast := rfl
@[simp] theorem packBuffer_raster (s : State) : (packBuffer s).raster = s.raster := rfl
@[simp] theorem packBuffer_out (s : State) : (packBuffer s).out = s.out := rfl
@[simp] theorem packBuffer_ghostScroll (s : State) : (packBuffer s).ghostScroll = s.ghostScroll := rfl
@[simp] theorem packBuffer_ghostBegun (s : State) : (packBuffer s).ghostBegun = s.ghostBegun := rfl
@[simp] theorem packBuffer_pixelPending (s : State) : (packBuffer s).pixelPending = false := rfl
@[simp] theorem packBuffer_encoded (s : State) : (packBuffer s).encoded = s.encoded := rfl
@[simp] theorem packBuffer_input (s : State) : (packBuffer s).input = s.input := rfl
@[simp] theorem packBuffer_results (s : State) : (packBuffer s).results = s.results := rfl
@[simp] theorem packBuffer_host (s : State) : (packBuffer s).host = s.host := rfl
@[simp] theorem packBuffer_owner (s : State) : (packBuffer s).owner = s.owner := rfl
@[simp] theorem packBuffer_draws (s : State) : (packBuffer s).draws = s.draws := rfl

@[simp] theorem accept_input (i : Instr) (r : Request) (q : List Request) (s : State) : (accept i r q s).input = q := rfl
@[simp] theorem accept_host (i : Instr) (r : Request) (q : List Request) (s : State) : (accept i r q s).host = r.host := rfl
@[simp] theorem accept_cfg (i : Instr) (r : Request) (q : List Request) (s : State) : (accept i r q s).cfg = s.cfg := rfl
@[simp] theorem accept_storedContrast (i : Instr) (r : Request) (q : List Request) (s : State) : (accept i r q s).storedContrast = s.storedContrast := rfl
@[simp] theorem accept_raster (i : Instr) (r : Request) (q : List Request) (s : State) : (accept i r q s).raster = s.raster := rfl
@[simp] theorem accept_dbuf (i : Instr) (r : Request) (q : List Request) (s : State) : (accept i r q s).dbuf = s.dbuf := rfl
@[simp] theorem accept_out (i : Instr) (r : Request) (q : List Request) (s : State) : (accept i r q s).out = s.out := rfl
@[simp] theorem accept_ghostScroll (i : Instr) (r : Request) (q : List Request) (s : State) : (accept i r q s).ghostScroll = s.ghostScroll := rfl
@[simp] theorem accept_ghostBegun (i : Instr) (r : Request) (q : List Request) (s : State) : (accept i r q s).ghostBegun = s.ghostBegun := rfl
@[simp] theorem accept_pixelPending (i : Instr) (r : Request) (q : List Request) (s : State) : (accept i r q s).pixelPending = s.pixelPending := rfl
@[simp] theorem accept_encoded (i : Instr) (r : Request) (q : List Request) (s : State) : (accept i r q s).encoded = s.encoded := rfl
@[simp] theorem accept_results (i : Instr) (r : Request) (q : List Request) (s : State) : (accept i r q s).results = s.results := rfl
@[simp] theorem accept_draws (i : Instr) (r : Request) (q : List Request) (s : State) : (accept i r q s).draws = s.draws := rfl

end Sys2Proof.Machine
end

