-- ==== Sys2Proof/Laws/Emit.lean ====
section
/-! SUPPORT. What emission can do (spec/00_scope.md R16; spec/20_memory.md R60; spec/60_exceptions.md R252): it appends
to the trace and takes draws; a frame boundary may also run INVERTs of other hosts; nothing else changes. -/

namespace Sys2Proof.Machine

@[simp] theorem emitOwn_cfg (e : Event) (s : State) : (emitOwn e s).cfg = s.cfg := rfl
@[simp] theorem emitOwn_storedContrast (e : Event) (s : State) : (emitOwn e s).storedContrast = s.storedContrast := rfl
@[simp] theorem emitOwn_raster (e : Event) (s : State) : (emitOwn e s).raster = s.raster := rfl
@[simp] theorem emitOwn_dbuf (e : Event) (s : State) : (emitOwn e s).dbuf = s.dbuf := rfl
@[simp] theorem emitOwn_ghostScroll (e : Event) (s : State) : (emitOwn e s).ghostScroll = s.ghostScroll := rfl
@[simp] theorem emitOwn_ghostBegun (e : Event) (s : State) : (emitOwn e s).ghostBegun = s.ghostBegun := rfl
@[simp] theorem emitOwn_pixelPending (e : Event) (s : State) : (emitOwn e s).pixelPending = s.pixelPending := rfl
@[simp] theorem emitOwn_encoded (e : Event) (s : State) : (emitOwn e s).encoded = s.encoded := rfl
@[simp] theorem emitOwn_host (e : Event) (s : State) : (emitOwn e s).host = s.host := rfl
@[simp] theorem emitOwn_owner (e : Event) (s : State) : (emitOwn e s).owner = s.owner := rfl
@[simp] theorem emitOwn_input (e : Event) (s : State) : (emitOwn e s).input = s.input := rfl
@[simp] theorem emitOwn_results (e : Event) (s : State) : (emitOwn e s).results = s.results := rfl

@[simp] theorem emitOwn_out (e : Event) (s : State) : (emitOwn e s).out = s.out ++ e :: drawnReport s.draws e := rfl
@[simp] theorem emitOwn_draws (e : Event) (s : State) : (emitOwn e s).draws = s.draws + drawsOf e := rfl

@[simp] theorem runIntruder_cfg (w : Intruder) (s : State) : (runIntruder w s).cfg = s.cfg := rfl
@[simp] theorem runIntruder_storedContrast (w : Intruder) (s : State) : (runIntruder w s).storedContrast = s.storedContrast := rfl
@[simp] theorem runIntruder_raster (w : Intruder) (s : State) : (runIntruder w s).raster = s.raster := rfl
@[simp] theorem runIntruder_dbuf (w : Intruder) (s : State) : (runIntruder w s).dbuf = s.dbuf := rfl
@[simp] theorem runIntruder_ghostScroll (w : Intruder) (s : State) : (runIntruder w s).ghostScroll = s.ghostScroll := rfl
@[simp] theorem runIntruder_ghostBegun (w : Intruder) (s : State) : (runIntruder w s).ghostBegun = s.ghostBegun := rfl
@[simp] theorem runIntruder_pixelPending (w : Intruder) (s : State) : (runIntruder w s).pixelPending = s.pixelPending := rfl
@[simp] theorem runIntruder_encoded (w : Intruder) (s : State) : (runIntruder w s).encoded = s.encoded := rfl
@[simp] theorem runIntruder_host (w : Intruder) (s : State) : (runIntruder w s).host = s.host := rfl
@[simp] theorem runIntruder_owner (w : Intruder) (s : State) : (runIntruder w s).owner = s.owner := rfl

@[simp] theorem frameBoundary_cfg (n : Nat) (s : State) : (frameBoundary n s).cfg = s.cfg := by
  induction n generalizing s with
  | zero => rfl
  | succ n ih => simp only [frameBoundary]; split <;> [rfl; (split <;> [rfl; simp [ih]])]
@[simp] theorem frameBoundary_storedContrast (n : Nat) (s : State) : (frameBoundary n s).storedContrast = s.storedContrast := by
  induction n generalizing s with
  | zero => rfl
  | succ n ih => simp only [frameBoundary]; split <;> [rfl; (split <;> [rfl; simp [ih]])]
@[simp] theorem frameBoundary_raster (n : Nat) (s : State) : (frameBoundary n s).raster = s.raster := by
  induction n generalizing s with
  | zero => rfl
  | succ n ih => simp only [frameBoundary]; split <;> [rfl; (split <;> [rfl; simp [ih]])]
@[simp] theorem frameBoundary_dbuf (n : Nat) (s : State) : (frameBoundary n s).dbuf = s.dbuf := by
  induction n generalizing s with
  | zero => rfl
  | succ n ih => simp only [frameBoundary]; split <;> [rfl; (split <;> [rfl; simp [ih]])]
@[simp] theorem frameBoundary_ghostScroll (n : Nat) (s : State) : (frameBoundary n s).ghostScroll = s.ghostScroll := by
  induction n generalizing s with
  | zero => rfl
  | succ n ih => simp only [frameBoundary]; split <;> [rfl; (split <;> [rfl; simp [ih]])]
@[simp] theorem frameBoundary_ghostBegun (n : Nat) (s : State) : (frameBoundary n s).ghostBegun = s.ghostBegun := by
  induction n generalizing s with
  | zero => rfl
  | succ n ih => simp only [frameBoundary]; split <;> [rfl; (split <;> [rfl; simp [ih]])]
@[simp] theorem frameBoundary_pixelPending (n : Nat) (s : State) : (frameBoundary n s).pixelPending = s.pixelPending := by
  induction n generalizing s with
  | zero => rfl
  | succ n ih => simp only [frameBoundary]; split <;> [rfl; (split <;> [rfl; simp [ih]])]
@[simp] theorem frameBoundary_encoded (n : Nat) (s : State) : (frameBoundary n s).encoded = s.encoded := by
  induction n generalizing s with
  | zero => rfl
  | succ n ih => simp only [frameBoundary]; split <;> [rfl; (split <;> [rfl; simp [ih]])]
@[simp] theorem frameBoundary_host (n : Nat) (s : State) : (frameBoundary n s).host = s.host := by
  induction n generalizing s with
  | zero => rfl
  | succ n ih => simp only [frameBoundary]; split <;> [rfl; (split <;> [rfl; simp [ih]])]
@[simp] theorem frameBoundary_owner (n : Nat) (s : State) : (frameBoundary n s).owner = s.owner := by
  induction n generalizing s with
  | zero => rfl
  | succ n ih => simp only [frameBoundary]; split <;> [rfl; (split <;> [rfl; simp [ih]])]

@[simp] theorem busBoundary_cfg (s : State) : (busBoundary s).cfg = s.cfg := frameBoundary_cfg _ s
@[simp] theorem emit_cfg (e : Event) (s : State) : (emit e s).cfg = s.cfg := by simp [emit]
@[simp] theorem busBoundary_storedContrast (s : State) : (busBoundary s).storedContrast = s.storedContrast := frameBoundary_storedContrast _ s
@[simp] theorem emit_storedContrast (e : Event) (s : State) : (emit e s).storedContrast = s.storedContrast := by simp [emit]
@[simp] theorem busBoundary_raster (s : State) : (busBoundary s).raster = s.raster := frameBoundary_raster _ s
@[simp] theorem emit_raster (e : Event) (s : State) : (emit e s).raster = s.raster := by simp [emit]
@[simp] theorem busBoundary_dbuf (s : State) : (busBoundary s).dbuf = s.dbuf := frameBoundary_dbuf _ s
@[simp] theorem emit_dbuf (e : Event) (s : State) : (emit e s).dbuf = s.dbuf := by simp [emit]
@[simp] theorem busBoundary_ghostScroll (s : State) : (busBoundary s).ghostScroll = s.ghostScroll := frameBoundary_ghostScroll _ s
@[simp] theorem emit_ghostScroll (e : Event) (s : State) : (emit e s).ghostScroll = s.ghostScroll := by simp [emit]
@[simp] theorem busBoundary_ghostBegun (s : State) : (busBoundary s).ghostBegun = s.ghostBegun := frameBoundary_ghostBegun _ s
@[simp] theorem busBoundary_pixelPending (s : State) : (busBoundary s).pixelPending = s.pixelPending := frameBoundary_pixelPending _ s
@[simp] theorem busBoundary_encoded (s : State) : (busBoundary s).encoded = s.encoded := frameBoundary_encoded _ s
@[simp] theorem emit_ghostBegun (e : Event) (s : State) : (emit e s).ghostBegun = s.ghostBegun := by simp [emit]
@[simp] theorem emit_pixelPending (e : Event) (s : State) : (emit e s).pixelPending = s.pixelPending := by simp [emit]
@[simp] theorem emit_encoded (e : Event) (s : State) : (emit e s).encoded = s.encoded := by simp [emit]
@[simp] theorem busBoundary_host (s : State) : (busBoundary s).host = s.host := frameBoundary_host _ s
@[simp] theorem emit_host (e : Event) (s : State) : (emit e s).host = s.host := by simp [emit]
@[simp] theorem busBoundary_owner (s : State) : (busBoundary s).owner = s.owner := frameBoundary_owner _ s
@[simp] theorem emit_owner (e : Event) (s : State) : (emit e s).owner = s.owner := by simp [emit]

@[simp] theorem emitAll_cfg (es : List Event) (s : State) : (emitAll es s).cfg = s.cfg := by
  induction es generalizing s with
  | nil => rfl
  | cons e es ih => exact (ih (emit e s)).trans (emit_cfg e s)
@[simp] theorem emitAll_storedContrast (es : List Event) (s : State) : (emitAll es s).storedContrast = s.storedContrast := by
  induction es generalizing s with
  | nil => rfl
  | cons e es ih => exact (ih (emit e s)).trans (emit_storedContrast e s)
@[simp] theorem emitAll_raster (es : List Event) (s : State) : (emitAll es s).raster = s.raster := by
  induction es generalizing s with
  | nil => rfl
  | cons e es ih => exact (ih (emit e s)).trans (emit_raster e s)
@[simp] theorem emitAll_dbuf (es : List Event) (s : State) : (emitAll es s).dbuf = s.dbuf := by
  induction es generalizing s with
  | nil => rfl
  | cons e es ih => exact (ih (emit e s)).trans (emit_dbuf e s)
@[simp] theorem emitAll_ghostScroll (es : List Event) (s : State) : (emitAll es s).ghostScroll = s.ghostScroll := by
  induction es generalizing s with
  | nil => rfl
  | cons e es ih => exact (ih (emit e s)).trans (emit_ghostScroll e s)
@[simp] theorem emitAll_ghostBegun (es : List Event) (s : State) : (emitAll es s).ghostBegun = s.ghostBegun := by
  induction es generalizing s with
  | nil => rfl
  | cons e es ih => exact (ih (emit e s)).trans (emit_ghostBegun e s)
@[simp] theorem emitAll_pixelPending (es : List Event) (s : State) : (emitAll es s).pixelPending = s.pixelPending := by
  induction es generalizing s with
  | nil => rfl
  | cons e es ih => exact (ih (emit e s)).trans (emit_pixelPending e s)
@[simp] theorem emitAll_encoded (es : List Event) (s : State) : (emitAll es s).encoded = s.encoded := by
  induction es generalizing s with
  | nil => rfl
  | cons e es ih => exact (ih (emit e s)).trans (emit_encoded e s)
@[simp] theorem emitAll_host (es : List Event) (s : State) : (emitAll es s).host = s.host := by
  induction es generalizing s with
  | nil => rfl
  | cons e es ih => exact (ih (emit e s)).trans (emit_host e s)
@[simp] theorem emitAll_owner (es : List Event) (s : State) : (emitAll es s).owner = s.owner := by
  induction es generalizing s with
  | nil => rfl
  | cons e es ih => exact (ih (emit e s)).trans (emit_owner e s)

@[simp] theorem syncBody_cfg (s : State) : (syncBody s).cfg = s.cfg := by simp [syncBody]
@[simp] theorem syncBody_storedContrast (s : State) : (syncBody s).storedContrast = s.storedContrast := by simp [syncBody]
@[simp] theorem syncBody_raster (s : State) : (syncBody s).raster = s.raster := by simp [syncBody]
@[simp] theorem syncBody_ghostScroll (s : State) : (syncBody s).ghostScroll = s.ghostScroll := by simp [syncBody]
@[simp] theorem syncBody_ghostBegun (s : State) : (syncBody s).ghostBegun = s.ghostBegun := by simp [syncBody]
@[simp] theorem syncBody_pixelPending (s : State) : (syncBody s).pixelPending = false := by simp [syncBody]
@[simp] theorem syncBody_encoded (s : State) : (syncBody s).encoded = s.encoded := by simp [syncBody]
@[simp] theorem syncBody_host (s : State) : (syncBody s).host = s.host := by simp [syncBody]
@[simp] theorem syncBody_owner (s : State) : (syncBody s).owner = s.owner := by simp [syncBody]
@[simp] theorem syncBody_dbuf (s : State) : (syncBody s).dbuf = (packBuffer s).dbuf := by simp [syncBody]

/-! ## The trace only grows -/

theorem frameBoundary_out (n : Nat) (s : State) : ∃ es, (frameBoundary n s).out = s.out ++ es := by
  induction n generalizing s with
  | zero => exact ⟨[], by simp [frameBoundary]⟩
  | succ n ih =>
    simp only [frameBoundary]
    split
    · exact ⟨[], by simp⟩
    · split
      · exact ⟨[], by simp⟩
      · rename_i w _
        obtain ⟨es, h⟩ := ih (runIntruder w (s.takeDraws 1))
        exact ⟨(.cmd (invertFrame w.on) :: drawnReport (s.draws + 1) (.cmd (invertFrame w.on))) ++ es, by
          rw [h]; simp [runIntruder]⟩

/-- What an event adds to the trace: other hosts' frames, then the event, then its report. -/
theorem emit_out (e : Event) (s : State) :
    (emit e s).out = (busBoundary s).out ++ e :: drawnReport (busBoundary s).draws e := rfl

theorem busBoundary_out (s : State) : ∃ es, (busBoundary s).out = s.out ++ es := frameBoundary_out _ s

theorem emit_out_grows (e : Event) (s : State) : s.out <+: (emit e s).out := by
  obtain ⟨es, h⟩ := busBoundary_out s
  exact ⟨es ++ e :: drawnReport (busBoundary s).draws e, by rw [emit_out, h, List.append_assoc]⟩

theorem emitAll_out_grows (es : List Event) (s : State) : s.out <+: (emitAll es s).out := by
  induction es generalizing s with
  | nil => exact List.prefix_refl _
  | cons e es ih => exact (emit_out_grows e s).trans (ih (emit e s))

/-! ## Quiet states: nothing comes between -/

theorem frameBoundary_quiet (n : Nat) {s : State} (h : s.Quiet) : frameBoundary n s = s := by
  cases n with
  | zero => rfl
  | succ n => simp only [frameBoundary, if_pos h]

theorem quiet_congr {s t : State} (hh : t.host = s.host) (hi : t.input = s.input) (h : s.Quiet) : t.Quiet := by
  unfold State.Quiet State.intruders at *
  rw [hh, hi]; exact h

theorem busBoundary_quiet {s : State} (h : s.Quiet) : busBoundary s = s := frameBoundary_quiet _ h

theorem emit_quiet (e : Event) {s : State} (h : s.Quiet) : emit e s = emitOwn e s :=
  congrArg (emitOwn e) (busBoundary_quiet h)

theorem emitAll_nil (s : State) : emitAll [] s = s := rfl

theorem emitAll_cons (e : Event) (es : List Event) (s : State) : emitAll (e :: es) s = emitAll es (emit e s) := rfl

theorem emitAll_append (es es' : List Event) (s : State) : emitAll (es ++ es') s = emitAll es' (emitAll es s) :=
  List.foldl_append

theorem emitAll_one (e : Event) (s : State) : emitAll [e] s = emit e s := rfl

/-- In a quiet state, events leave exactly the trace `traceFrom` gives. -/
theorem emitAll_quiet (es : List Event) {s : State} (h : s.Quiet) :
    emitAll es s = (s.addEvents (traceFrom s.draws es)).takeDraws (drawsIn es) := by
  induction es generalizing s with
  | nil => simp [emitAll, traceFrom, drawsIn, State.addEvents, State.takeDraws]
  | cons e es ih =>
    rw [emitAll_cons, emit_quiet e h, ih (s := emitOwn e s) (quiet_congr rfl rfl h)]
    simp [State.addEvents, State.takeDraws, emitOwn, traceFrom, drawsIn, Nat.add_assoc]

theorem traceFrom_append (n : Nat) (es es' : List Event) :
    traceFrom n (es ++ es') = traceFrom n es ++ traceFrom (n + drawsIn es) es' := by
  induction es generalizing n with
  | nil => simp [traceFrom, drawsIn]
  | cons e es ih => simp [traceFrom, drawsIn, ih, Nat.add_assoc]

theorem drawsIn_append (es es' : List Event) : drawsIn (es ++ es') = drawsIn es + drawsIn es' := by
  simp [drawsIn]

theorem quiet_emitAll (es : List Event) {s : State} (h : s.Quiet) : (emitAll es s).Quiet := by
  rw [emitAll_quiet es h]; exact quiet_congr rfl rfl h

/-! ## The frames of a trace are the frames emitted -/

theorem framesOf_append (es es' : List Event) : framesOf (es ++ es') = framesOf es ++ framesOf es' :=
  List.filter_append _ _

theorem framesOf_drawnReport (n : Nat) (e : Event) : framesOf (drawnReport n e) = [] := by
  cases e <;> simp only [drawnReport] <;> (try split) <;> rfl

theorem framesOf_traceFrom (n : Nat) (es : List Event) : framesOf (traceFrom n es) = framesOf es := by
  induction es generalizing n with
  | nil => rfl
  | cons e es ih =>
    have h : framesOf (e :: es) = framesOf [e] ++ framesOf es := framesOf_append [e] es
    have h' : framesOf (e :: (drawnReport n e ++ traceFrom (n + drawsOf e) es))
        = framesOf [e] ++ framesOf (drawnReport n e ++ traceFrom (n + drawsOf e) es) := framesOf_append [e] _
    rw [traceFrom, h', framesOf_append, framesOf_drawnReport, ih, h, List.nil_append]

/-- The frames of a run of events in a quiet state. -/
theorem framesOf_emitAll {s : State} (h : s.Quiet) (es : List Event) :
    framesOf (emitAll es s).out = framesOf s.out ++ framesOf es := by
  rw [emitAll_quiet es h]
  exact (framesOf_append _ _).trans (congrArg _ (framesOf_traceFrom _ _))

/-! ## No other host sends data -/

theorem dataFramesOf_append (es es' : List Event) : dataFramesOf (es ++ es') = dataFramesOf es ++ dataFramesOf es' :=
  List.filterMap_append

theorem dataFramesOf_drawnReport (n : Nat) (e : Event) : dataFramesOf (drawnReport n e) = [] := by
  cases e <;> simp only [drawnReport] <;> (try split) <;> rfl

theorem dataFramesOf_frameBoundary (n : Nat) (s : State) :
    dataFramesOf (frameBoundary n s).out = dataFramesOf s.out := by
  induction n generalizing s with
  | zero => rfl
  | succ n ih =>
    simp only [frameBoundary]
    split
    · rfl
    · split
      · rfl
      · rename_i w _
        rw [ih]
        have h : (runIntruder w (s.takeDraws 1)).out
            = s.out ++ ([.cmd (invertFrame w.on)] ++ drawnReport (s.draws + 1) (.cmd (invertFrame w.on))) := rfl
        rw [h, dataFramesOf_append, dataFramesOf_append, dataFramesOf_drawnReport]
        exact List.append_nil _

/-- The data frames that an event adds to the trace are its own, whatever other hosts send. -/
theorem dataFramesOf_emit (e : Event) (s : State) :
    dataFramesOf (emit e s).out = dataFramesOf s.out ++ dataFramesOf [e] := by
  have h : (emit e s).out = (busBoundary s).out ++ ([e] ++ drawnReport (busBoundary s).draws e) := rfl
  rw [h, dataFramesOf_append, dataFramesOf_append, dataFramesOf_drawnReport, List.append_nil, busBoundary,
    dataFramesOf_frameBoundary]

theorem dataFramesOf_emitAll (es : List Event) (s : State) :
    dataFramesOf (emitAll es s).out = dataFramesOf s.out ++ dataFramesOf es := by
  induction es generalizing s with
  | nil => exact (List.append_nil _).symm
  | cons e es ih => rw [emitAll_cons, ih, dataFramesOf_emit, List.append_assoc, ← dataFramesOf_append]; rfl

/-! ## Legal events stay legal -/

theorem legal_drawnReport (d : Cfg) (n : Nat) (e : Event) : (drawnReport n e).all (legalEvent d) = true := by
  cases e <;> simp only [drawnReport] <;> (try split) <;> rfl

theorem legal_invertFrame (d : Cfg) (on : Bool) : legalEvent d (.cmd (invertFrame on)) = true := by
  cases on <;> rfl

theorem emitOwn_legal {e : Event} {s : State} (he : legalEvent s.cfg e = true)
    (hs : s.out.all (legalEvent s.cfg) = true) : (emitOwn e s).out.all (legalEvent s.cfg) = true := by
  simp [he, legal_drawnReport, -List.all_eq_true, hs]

theorem frameBoundary_legal (n : Nat) {s : State} (hs : s.out.all (legalEvent s.cfg) = true) :
    (frameBoundary n s).out.all (legalEvent s.cfg) = true := by
  induction n generalizing s with
  | zero => exact hs
  | succ n ih =>
    simp only [frameBoundary]
    split
    · exact hs
    · split
      · exact hs
      · rename_i w _
        exact ih (s := runIntruder w (s.takeDraws 1))
          (emitOwn_legal (s := (s.takeDraws 1).withInput w.rest) (legal_invertFrame _ _) hs)

theorem emit_legal {e : Event} {s : State} (he : legalEvent s.cfg e = true)
    (hs : s.out.all (legalEvent s.cfg) = true) : (emit e s).out.all (legalEvent s.cfg) = true := by
  have h := emitOwn_legal (e := e) (s := busBoundary s) (by rw [busBoundary_cfg]; exact he)
    (by rw [busBoundary_cfg]; exact frameBoundary_legal _ hs)
  rwa [busBoundary_cfg] at h

theorem emitAll_legal (es : List Event) {s : State} (he : es.all (legalEvent s.cfg) = true)
    (hs : s.out.all (legalEvent s.cfg) = true) : (emitAll es s).out.all (legalEvent s.cfg) = true := by
  induction es generalizing s with
  | nil => exact hs
  | cons e es ih =>
    rw [List.all_cons, Bool.and_eq_true] at he
    rw [emitAll_cons]
    have h := ih (s := emit e s) (by rw [emit_cfg]; exact he.2) (by rw [emit_cfg]; exact emit_legal he.1 hs)
    rwa [emit_cfg] at h

end Sys2Proof.Machine
end

