-- ==== Sys2Proof/Laws/Memory.lean ====
section
/-! SUPPORT. What the memory operations do: the read after a write, the read after a rewrite, and that both keep the
canonical form and the bound of the addresses. -/

namespace Sys2Proof.Machine

variable {α : Type} [DecidableEq α] {d : α}

theorem Memory.risingFrom_mono {lo lo' : Nat} {m : List (Nat × α)} (h : Memory.risingFrom d lo m = true)
    (hle : lo' ≤ lo) : Memory.risingFrom d lo' m = true := by
  cases m with
  | nil => rfl
  | cons c rest =>
    obtain ⟨a, v⟩ := c
    simp only [Memory.risingFrom, Bool.and_eq_true, decide_eq_true_eq] at h ⊢
    exact ⟨⟨by omega, h.1.2⟩, h.2⟩

theorem Memory.read_of_lt {m : List (Nat × α)} : ∀ {lo a : Nat}, Memory.risingFrom d lo m = true → a < lo →
    Memory.read d m a = d := by
  induction m with
  | nil => intros; rfl
  | cons c rest ih =>
    obtain ⟨b, v⟩ := c
    intro lo a h hlt
    simp only [Memory.risingFrom, Bool.and_eq_true, decide_eq_true_eq] at h
    rw [Memory.read, if_neg (by omega)]
    exact ih h.2 (by omega)

theorem Memory.read_write_from {m : List (Nat × α)} : ∀ {lo : Nat} (a : Nat) (v : α) (b : Nat),
    Memory.risingFrom d lo m = true →
    Memory.read d (Memory.write d m a v) b = if b = a then v else Memory.read d m b := by
  induction m with
  | nil =>
    intro lo a v b _
    by_cases hv : v = d <;> by_cases hb : b = a <;> simp [Memory.write, Memory.read, hv, hb]
  | cons c rest ih =>
    obtain ⟨k, w⟩ := c
    intro lo a v b h
    simp only [Memory.risingFrom, Bool.and_eq_true, decide_eq_true_eq] at h
    have hrest : ∀ x, x ≤ k → Memory.read d rest x = d := fun x hx => Memory.read_of_lt h.2 (by omega)
    unfold Memory.write
    by_cases h1 : a < k
    · rw [if_pos h1]
      by_cases hv : v = d
      · rw [if_pos hv]
        by_cases hb : b = a
        · subst hb
          rw [if_pos rfl, Memory.read, if_neg (by omega), hrest b (by omega), hv]
        · rw [if_neg hb]
      · rw [if_neg hv, Memory.read]
    · rw [if_neg h1]
      by_cases h2 : a = k
      · subst h2
        rw [if_pos rfl]
        by_cases hv : v = d
        · rw [if_pos hv]
          by_cases hb : b = a
          · subst hb
            rw [if_pos rfl, hrest b (by omega), hv]
          · rw [if_neg hb, Memory.read, if_neg hb]
        · rw [if_neg hv]
          by_cases hb : b = a
          · rw [Memory.read, if_pos hb, if_pos hb]
          · rw [Memory.read, if_neg hb, if_neg hb, Memory.read, if_neg hb]
      · rw [if_neg h2, Memory.read, ih a v b h.2]
        by_cases hb : b = k
        · subst hb
          rw [if_pos rfl, if_neg (by omega), Memory.read, if_pos rfl]
        · rw [if_neg hb, Memory.read, if_neg hb]

/-- A read after a write gives the value written there, and every other place reads as before. -/
theorem Memory.read_write {m : List (Nat × α)} (h : Memory.wf d m = true) (a : Nat) (v : α) (b : Nat) :
    Memory.read d (Memory.write d m a v) b = if b = a then v else Memory.read d m b :=
  Memory.read_write_from a v b h

theorem Memory.risingFrom_write {m : List (Nat × α)} : ∀ {lo : Nat} (a : Nat) (v : α),
    Memory.risingFrom d lo m = true → Memory.risingFrom d (min lo a) (Memory.write d m a v) = true := by
  induction m with
  | nil =>
    intro lo a v _
    by_cases hv : v = d <;> simp [Memory.write, Memory.risingFrom, hv]
  | cons c rest ih =>
    obtain ⟨k, w⟩ := c
    intro lo a v h
    have h' := h
    simp only [Memory.risingFrom, Bool.and_eq_true, decide_eq_true_eq] at h
    unfold Memory.write
    by_cases h1 : a < k
    · rw [if_pos h1]
      by_cases hv : v = d
      · rw [if_pos hv]; exact Memory.risingFrom_mono h' (by omega)
      · rw [if_neg hv]
        simp only [Memory.risingFrom, Bool.and_eq_true, decide_eq_true_eq]
        exact ⟨⟨by omega, hv⟩, ⟨by omega, h.1.2⟩, h.2⟩
    · rw [if_neg h1]
      by_cases h2 : a = k
      · subst h2
        rw [if_pos rfl]
        by_cases hv : v = d
        · rw [if_pos hv]; exact Memory.risingFrom_mono h.2 (by omega)
        · rw [if_neg hv]
          simp only [Memory.risingFrom, Bool.and_eq_true, decide_eq_true_eq]
          exact ⟨⟨by omega, hv⟩, h.2⟩
      · rw [if_neg h2]
        simp only [Memory.risingFrom, Bool.and_eq_true, decide_eq_true_eq]
        have hm : min (k + 1) a = k + 1 := by omega
        exact ⟨⟨by omega, h.1.2⟩, hm ▸ ih a v h.2⟩

/-- A write keeps the canonical form. -/
theorem Memory.wf_write {m : List (Nat × α)} (h : Memory.wf d m = true) (a : Nat) (v : α) :
    Memory.wf d (Memory.write d m a v) = true :=
  Memory.risingFrom_mono (Memory.risingFrom_write a v h) (by omega)

omit [DecidableEq α] in
theorem Memory.below_iff {n : Nat} {m : List (Nat × α)} : Memory.below n m = true ↔ ∀ c ∈ m, c.1 < n := by
  simp [Memory.below]

theorem Memory.mem_write {m : List (Nat × α)} {a : Nat} {v : α} {c : Nat × α} (h : c ∈ Memory.write d m a v) :
    c = (a, v) ∨ c ∈ m := by
  induction m with
  | nil =>
    unfold Memory.write at h
    split at h <;> simp_all
  | cons x rest ih =>
    obtain ⟨k, w⟩ := x
    unfold Memory.write at h
    split at h
    · split at h <;> simp_all
    · split at h
      · split at h <;> simp_all [or_comm]
        rcases h with h | h <;> simp [h]
      · simp only [List.mem_cons] at h ⊢
        rcases h with h | h
        · exact Or.inr (Or.inl h)
        · rcases ih h with h | h
          · exact Or.inl h
          · exact Or.inr (Or.inr h)

theorem Memory.below_write {n : Nat} {m : List (Nat × α)} (h : Memory.below n m = true) {a : Nat} (ha : a < n)
    (v : α) : Memory.below n (Memory.write d m a v) = true := by
  rw [Memory.below_iff] at h ⊢
  intro c hc
  rcases Memory.mem_write hc with rfl | hc
  · exact ha
  · exact h c hc

/-! ## The rewrite -/

omit [DecidableEq α] in
theorem Memory.read_append (m m' : List (Nat × α)) (a : Nat) :
    Memory.read d (m ++ m') a = if a ∈ m.map Prod.fst then Memory.read d m a else Memory.read d m' a := by
  induction m with
  | nil => simp
  | cons c rest ih =>
    obtain ⟨b, v⟩ := c
    by_cases h : a = b
    · simp [h, Memory.read]
    · simp only [List.cons_append, Memory.read, ih, List.map_cons, List.mem_cons, h, false_or, if_false]

omit [DecidableEq α] in
theorem Memory.read_filter_le (m : List (Nat × α)) (n a : Nat) (h : n ≤ a) :
    Memory.read d (m.filter fun c => decide (n ≤ c.1)) a = Memory.read d m a := by
  induction m with
  | nil => rfl
  | cons c rest ih =>
    obtain ⟨b, v⟩ := c
    by_cases hb : n ≤ b
    · simp [Memory.read, hb, ih]
    · have : a ≠ b := by omega
      simp [Memory.read, hb, ih, this]

omit [DecidableEq α] in
theorem Memory.read_filter_gt (m : List (Nat × α)) (n a : Nat) (h : a < n) :
    Memory.read d (m.filter fun c => decide (n ≤ c.1)) a = d := by
  induction m with
  | nil => rfl
  | cons c rest ih =>
    obtain ⟨b, v⟩ := c
    by_cases hb : n ≤ b
    · have : a ≠ b := by omega
      simp [Memory.read, hb, ih, this]
    · simp [hb, ih]

/-- The cells of `g` at the addresses of `l`, without those that hold `d`. -/
theorem Memory.read_filterMap (g : Nat → α) (l : List Nat) (a : Nat) :
    Memory.read d (l.filterMap fun k => if g k = d then none else some (k, g k)) a = if a ∈ l then g a else d := by
  induction l with
  | nil => rfl
  | cons k rest ih =>
    by_cases hg : g k = d
    · by_cases hk : a = k
      · subst hk; simp [hg, ih]
      · simp [hg, ih, hk]
    · by_cases hk : a = k <;> simp [hg, Memory.read, ih, hk]

theorem Memory.mem_filterMap_fst {g : Nat → α} {l : List Nat} {a : Nat}
    (h : a ∈ (l.filterMap fun k => if g k = d then none else some (k, g k)).map Prod.fst) : a ∈ l ∧ g a ≠ d := by
  simp only [List.mem_map, List.mem_filterMap] at h
  obtain ⟨c, ⟨k, hk, hc⟩, rfl⟩ := h
  split at hc
  · cases hc
  · cases hc; exact ⟨hk, ‹_›⟩

/-- What a rewrite leaves: the new value below `n`, the old one elsewhere. -/
theorem Memory.read_rewrite (n : Nat) (f : Nat → α → α) (m : List (Nat × α)) (a : Nat) :
    Memory.read d (Memory.rewrite d n f m) a =
      if a < n then f a (Memory.read d m a) else Memory.read d m a := by
  unfold Memory.rewrite
  rw [Memory.read_append, Memory.read_filterMap (fun k => f k (Memory.read d m k))]
  by_cases h : a < n
  · rw [Memory.read_filter_gt m n a h]
    simp only [List.mem_range, h, if_true]
    split
    · rfl
    · rename_i hn
      by_contra hc
      apply hn
      simp only [List.mem_map, List.mem_filterMap, List.mem_range]
      exact ⟨(a, f a (Memory.read d m a)), ⟨a, h, by rw [if_neg (fun e => hc e.symm)]⟩, rfl⟩
  · rw [Memory.read_filter_le m n a (by omega)]
    rw [if_neg h, if_neg]
    intro hm
    exact h (List.mem_range.1 (Memory.mem_filterMap_fst hm).1)

theorem Memory.risingFrom_append {m m' : List (Nat × α)} {n : Nat} : ∀ {lo : Nat}, Memory.risingFrom d lo m = true →
    Memory.below n m = true → Memory.risingFrom d n m' = true → lo ≤ n → Memory.risingFrom d lo (m ++ m') = true := by
  induction m with
  | nil => intro lo _ _ h hle; exact Memory.risingFrom_mono h hle
  | cons c rest ih =>
    obtain ⟨k, v⟩ := c
    intro lo h hb h' _
    simp only [Memory.risingFrom, Memory.below, List.all_cons, Bool.and_eq_true, decide_eq_true_eq, List.cons_append]
      at h hb ⊢
    exact ⟨h.1, ih h.2 hb.2 h' (by omega)⟩

theorem Memory.risingFrom_filterMap (g : Nat → α) : ∀ (n lo : Nat),
    Memory.risingFrom d lo ((List.range' lo n).filterMap fun k => if g k = d then none else some (k, g k)) = true := by
  intro n
  induction n with
  | zero => intro lo; rfl
  | succ n ih =>
    intro lo
    rw [List.range'_succ, List.filterMap_cons]
    split
    · exact Memory.risingFrom_mono (ih (lo + 1)) (by omega)
    · rename_i hc
      split at hc
      · cases hc
      · cases hc
        simp only [Memory.risingFrom, Bool.and_eq_true, decide_eq_true_eq]
        exact ⟨⟨Nat.le_refl _, ‹_›⟩, ih (lo + 1)⟩

theorem Memory.risingFrom_filter {m : List (Nat × α)} (p : Nat × α → Bool) : ∀ {lo : Nat},
    Memory.risingFrom d lo m = true → Memory.risingFrom d lo (m.filter p) = true := by
  induction m with
  | nil => intros; rfl
  | cons c rest ih =>
    obtain ⟨k, v⟩ := c
    intro lo h
    simp only [Memory.risingFrom, Bool.and_eq_true, decide_eq_true_eq] at h
    rw [List.filter_cons]
    split
    · simp only [Memory.risingFrom, Bool.and_eq_true, decide_eq_true_eq]
      exact ⟨h.1, ih h.2⟩
    · exact Memory.risingFrom_mono (ih h.2) (by omega)

theorem Memory.risingFrom_of_all_le {m : List (Nat × α)} {n : Nat} : ∀ {lo : Nat}, Memory.risingFrom d lo m = true →
    (∀ c ∈ m, n ≤ c.1) → Memory.risingFrom d n m = true := by
  intro lo h hall
  cases m with
  | nil => rfl
  | cons c rest =>
    obtain ⟨k, v⟩ := c
    simp only [Memory.risingFrom, Bool.and_eq_true, decide_eq_true_eq] at h ⊢
    exact ⟨⟨hall (k, v) List.mem_cons_self, h.1.2⟩, h.2⟩

theorem Memory.below_filterMap (g : Nat → α) (n : Nat) :
    Memory.below n ((List.range n).filterMap fun k => if g k = d then none else some (k, g k)) = true := by
  unfold Memory.below
  rw [List.all_eq_true]
  intro c hc
  exact decide_eq_true (List.mem_range.1 (Memory.mem_filterMap_fst (List.mem_map_of_mem hc)).1)

/-- A rewrite keeps the canonical form. -/
theorem Memory.wf_rewrite {m : List (Nat × α)} (h : Memory.wf d m = true) (n : Nat) (f : Nat → α → α) :
    Memory.wf d (Memory.rewrite d n f m) = true := by
  unfold Memory.wf Memory.rewrite
  refine Memory.risingFrom_append (n := n) ?_ (Memory.below_filterMap (fun k => f k (Memory.read d m k)) n) ?_
    (Nat.zero_le n)
  · rw [List.range_eq_range']
    exact Memory.risingFrom_filterMap (fun k => f k (Memory.read d m k)) n 0
  · exact Memory.risingFrom_of_all_le (Memory.risingFrom_filter _ h) (fun c hc => by simpa using List.of_mem_filter hc)

theorem Memory.below_rewrite {N n : Nat} {m : List (Nat × α)} (h : Memory.below N m = true) (hn : n ≤ N)
    (f : Nat → α → α) : Memory.below N (Memory.rewrite d n f m) = true := by
  unfold Memory.rewrite Memory.below
  rw [List.all_append, Bool.and_eq_true]
  constructor
  · have h1 := Memory.below_filterMap (d := d) (fun k => f k (Memory.read d m k)) n
    unfold Memory.below at h1
    rw [List.all_eq_true] at h1 ⊢
    intro c hc
    have h2 := h1 c hc
    simp only [decide_eq_true_eq] at h2 ⊢
    omega
  · rw [List.all_eq_true]
    intro c hc
    exact (List.all_eq_true.1 h) c (List.mem_of_mem_filter hc)

/-- Two memories in canonical form that read alike are equal. -/
theorem Memory.ext_from {m m' : List (Nat × α)} : ∀ {lo : Nat}, Memory.risingFrom d lo m = true →
    Memory.risingFrom d lo m' = true → (∀ a, Memory.read d m a = Memory.read d m' a) → m = m' := by
  induction m generalizing m' with
  | nil =>
    intro lo _ h' hr
    cases m' with
    | nil => rfl
    | cons c rest =>
      obtain ⟨k, v⟩ := c
      have := hr k
      simp only [Memory.risingFrom, Bool.and_eq_true, decide_eq_true_eq] at h'
      simp [Memory.read] at this
      exact absurd this.symm h'.1.2
  | cons c rest ih =>
    obtain ⟨k, v⟩ := c
    intro lo h h' hr
    simp only [Memory.risingFrom, Bool.and_eq_true, decide_eq_true_eq] at h
    cases m' with
    | nil =>
      have := hr k
      simp [Memory.read] at this
      exact absurd this h.1.2
    | cons c' rest' =>
      obtain ⟨k', v'⟩ := c'
      simp only [Memory.risingFrom, Bool.and_eq_true, decide_eq_true_eq] at h'
      have hkk : k = k' := by
        by_contra hne
        rcases Nat.lt_or_gt_of_ne hne with hlt | hgt
        · have h1 := hr k
          rw [Memory.read, if_pos rfl, Memory.read, if_neg (by omega), Memory.read_of_lt h'.2 (by omega)] at h1
          exact h.1.2 h1
        · have h1 := hr k'
          rw [Memory.read, if_neg (by omega), Memory.read, if_pos rfl, Memory.read_of_lt h.2 (by omega)] at h1
          exact h'.1.2 h1.symm
      subst hkk
      have hv : v = v' := by simpa [Memory.read] using hr k
      subst hv
      have : rest = rest' := by
        refine ih h.2 h'.2 fun a => ?_
        by_cases ha : a = k
        · subst ha
          rw [Memory.read_of_lt h.2 (by omega), Memory.read_of_lt h'.2 (by omega)]
        · simpa [Memory.read, ha] using hr a
      rw [this]

theorem Memory.ext_of_wf {m m' : List (Nat × α)} (h : Memory.wf d m = true) (h' : Memory.wf d m' = true)
    (hr : ∀ a, Memory.read d m a = Memory.read d m' a) : m = m' :=
  Memory.ext_from h h' hr

omit [DecidableEq α] in
/-- An address at or past the bound reads as unlisted. -/
theorem Memory.read_of_below {n : Nat} {m : List (Nat × α)} (h : Memory.below n m = true) {a : Nat} (ha : n ≤ a) :
    Memory.read d m a = d := by
  induction m with
  | nil => rfl
  | cons c rest ih =>
    obtain ⟨k, v⟩ := c
    simp only [Memory.below, List.all_cons, Bool.and_eq_true, decide_eq_true_eq] at h ih
    rw [Memory.read, if_neg (by omega)]
    exact ih h.2

end Sys2Proof.Machine
end

