-- ==== Sys2Proof/Laws/Ops.lean ====
section
/-! SUPPORT. What the shared operations over raster and dbuf do: one lemma each for the pixel after a rewrite, the byte
after packing, and SyncBody; and that each keeps the invariant. -/

namespace Sys2Proof.Machine

theorem width_pos (d : Dims) : 0 < width d := by cases d <;> decide

/-! ## The raster -/

theorem pixelKey_lt {d : Dims} {x y : Nat} (hx : x < width d) (hy : y < height d) :
    pixelKey d x y < width d * height d := by
  cases d <;> simp only [pixelKey, width, height] at * <;> omega

theorem pixelKey_mod {d : Dims} {x y : Nat} (hx : x < width d) : pixelKey d x y % width d = x := by
  rw [pixelKey, Nat.mul_comm, Nat.mul_add_mod, Nat.mod_eq_of_lt hx]

theorem pixelKey_div {d : Dims} {x y : Nat} (hx : x < width d) : pixelKey d x y / width d = y := by
  rw [pixelKey, Nat.mul_comm, Nat.mul_add_div (width_pos d), Nat.div_eq_of_lt hx, Nat.add_zero]

/-- A pixel of the display after a rewrite of the raster. -/
theorem pixel_mapRaster (s : State) (g : Nat → Nat → Bool → Bool) {x y : Nat} (hx : x < width s.cfg.dims)
    (hy : y < height s.cfg.dims) : (s.mapRaster g).pixel x y = g x y (s.pixel x y) := by
  unfold State.pixel
  rw [State.mapRaster_raster, State.mapRaster_cfg, Memory.read_rewrite, if_pos (pixelKey_lt hx hy),
    pixelKey_mod hx, pixelKey_div hx]

/-- CLEAR's body turns every pixel OFF (R110). -/
theorem pixel_clearBody (s : State) {x y : Nat} (hx : x < width s.cfg.dims) (hy : y < height s.cfg.dims) :
    (clearBody s).pixel x y = false := pixel_mapRaster s _ hx hy

/-! ## The device buffer -/

theorem getLsbD_packBits (f : Nat → Bool) (k : Nat) : (packBits f).getLsbD k = (decide (k < 8) && f k) := by
  by_cases hk : k < 8
  · have h : ∀ b0 b1 b2 b3 b4 b5 b6 b7 : Bool,
        let v : Byte := 0 + (zext8 (BitVec.ofBool b0) <<< 0) + (zext8 (BitVec.ofBool b1) <<< 1)
          + (zext8 (BitVec.ofBool b2) <<< 2) + (zext8 (BitVec.ofBool b3) <<< 3) + (zext8 (BitVec.ofBool b4) <<< 4)
          + (zext8 (BitVec.ofBool b5) <<< 5) + (zext8 (BitVec.ofBool b6) <<< 6) + (zext8 (BitVec.ofBool b7) <<< 7)
        v.getLsbD 0 = b0 ∧ v.getLsbD 1 = b1 ∧ v.getLsbD 2 = b2 ∧ v.getLsbD 3 = b3 ∧ v.getLsbD 4 = b4
          ∧ v.getLsbD 5 = b5 ∧ v.getLsbD 6 = b6 ∧ v.getLsbD 7 = b7 := by decide
    have := h (f 0) (f 1) (f 2) (f 3) (f 4) (f 5) (f 6) (f 7)
    have hp : packBits f = 0 + (zext8 (BitVec.ofBool (f 0)) <<< 0) + (zext8 (BitVec.ofBool (f 1)) <<< 1)
          + (zext8 (BitVec.ofBool (f 2)) <<< 2) + (zext8 (BitVec.ofBool (f 3)) <<< 3)
          + (zext8 (BitVec.ofBool (f 4)) <<< 4) + (zext8 (BitVec.ofBool (f 5)) <<< 5)
          + (zext8 (BitVec.ofBool (f 6)) <<< 6) + (zext8 (BitVec.ofBool (f 7)) <<< 7) := rfl
    rw [hp]
    obtain ⟨h0, h1, h2, h3, h4, h5, h6, h7⟩ := this
    match k, hk with
    | 0, _ => simpa using h0
    | 1, _ => simpa using h1
    | 2, _ => simpa using h2
    | 3, _ => simpa using h3
    | 4, _ => simpa using h4
    | 5, _ => simpa using h5
    | 6, _ => simpa using h6
    | 7, _ => simpa using h7
  · simp [hk, BitVec.getLsbD_of_ge _ _ (Nat.le_of_not_lt hk)]

theorem packBits_congr {f g : Nat → Bool} (h : ∀ b, b < 8 → f b = g b) : packBits f = packBits g := by
  apply BitVec.eq_of_getLsbD_eq
  intro k hk
  rw [getLsbD_packBits, getLsbD_packBits, h k hk]

/-- Bit b of pack(raster)[i] is pixel (i % W, (i / W)·8 + b) (R48). -/
theorem getLsbD_packByte (d : Dims) (p : Nat → Nat → Bool) (i b : Nat) (hb : b < 8) :
    (packByte d p i).getLsbD b = p (i % width d) (i / width d * 8 + b) := by
  rw [packByte, getLsbD_packBits]; simp [hb]

theorem packByte_congr {d : Dims} {p q : Nat → Nat → Bool} {i : Nat} (hi : i < bufferSize d)
    (h : ∀ x y, x < width d → y < height d → p x y = q x y) : packByte d p i = packByte d q i := by
  apply packBits_congr
  intro b hb
  refine h _ _ (Nat.mod_lt _ (width_pos d)) ?_
  cases d <;> simp only [bufferSize, pages, width, height] at * <;> omega

theorem packByte_false (d : Dims) (i : Nat) : packByte d (fun _ _ => false) i = 0 := rfl

theorem packBuffer_dbuf (s : State) : (packBuffer s).dbuf = Memory.rewrite 0 (bufferSize s.cfg.dims)
    (fun i _ => packByte s.cfg.dims s.pixel i) s.dbuf := rfl

/-- A byte of dbuf after packing (R117). -/
theorem bufferByte_packBuffer (s : State) (i : Nat) : (packBuffer s).bufferByte i =
    if i < bufferSize s.cfg.dims then packByte s.cfg.dims s.pixel i else s.bufferByte i := by
  unfold State.bufferByte
  rw [packBuffer_dbuf, Memory.read_rewrite]

/-- The data frame of SyncBody is pack(raster) (R117, R121). -/
theorem bufferBytes_packBuffer (s : State) : (packBuffer s).bufferBytes =
    (List.range (bufferSize s.cfg.dims)).map (packByte s.cfg.dims s.pixel) := by
  unfold State.bufferBytes
  rw [packBuffer_cfg]
  refine List.map_congr_left fun i hi => ?_
  rw [bufferByte_packBuffer, if_pos (List.mem_range.1 hi)]

theorem length_bufferBytes (s : State) : s.bufferBytes.length = bufferSize s.cfg.dims := by
  simp [State.bufferBytes]

/-- A cleared raster packs to zero bytes (R120). -/
theorem packByte_clearBody (s : State) {i : Nat} (hi : i < bufferSize s.cfg.dims) :
    packByte s.cfg.dims (clearBody s).pixel i = 0 := by
  rw [packByte_congr (q := fun _ _ => false) hi fun x y hx hy => pixel_clearBody s hx hy, packByte_false]

theorem bufferBytes_packBuffer_clearBody (s : State) :
    (packBuffer (clearBody s)).bufferBytes = List.replicate (bufferSize s.cfg.dims) 0 := by
  rw [bufferBytes_packBuffer, clearBody_cfg]
  rw [List.map_congr_left (g := fun _ => (0 : Byte)) fun i hi => packByte_clearBody s (List.mem_range.1 hi)]
  simp

/-! ## SyncBody -/

theorem syncFrames_packBuffer (s : State) : syncFrames (packBuffer s) = windowFrames s.cfg.dims
    ++ [.data ((List.range (bufferSize s.cfg.dims)).map (packByte s.cfg.dims s.pixel))] := by
  rw [syncFrames, bufferBytes_packBuffer, packBuffer_cfg]

/-- SyncBody in a quiet state (R117). -/
theorem syncBody_quiet {s : State} (h : s.Quiet) : syncBody s =
    ((packBuffer s).addEvents (traceFrom s.draws (syncFrames (packBuffer s)))).takeDraws
      (drawsIn (syncFrames (packBuffer s))) :=
  emitAll_quiet _ (s := packBuffer s) (quiet_congr rfl rfl h)

theorem quiet_syncBody {s : State} (h : s.Quiet) : (syncBody s).Quiet := by
  rw [syncBody_quiet h]; exact quiet_congr rfl rfl h

theorem syncBody_out_grows (s : State) : s.out <+: (syncBody s).out := emitAll_out_grows _ (packBuffer s)

/-! ## Results -/

/-- An operation that returns `Ok` answers its state with that result added. -/
theorem complete_next {s t : State} (h : complete s = .next t) : t = s.addResult s.host .ok :=
  (Host.Outcome.next.inj h).symm

/-- An error leaves everything but the result, and the calls chained to it (R248). -/
theorem raiseError_next {e : OpError} {s t : State} (h : raiseError e s = .next t) :
    t = (s.withInput (dropChained s.host s.input)).addResult s.host (.error e) :=
  (Host.Outcome.next.inj h).symm

/-- A command of the encoder leaves its bytes as the encoder's answer and nothing else. -/
theorem runCommand_next {bs : List Byte} {s t : State} (h : runCommand bs s = .next t) : t = s.withEncoded bs :=
  (Host.Outcome.next.inj h).symm

/-! ## The invariant -/

theorem inv_of_eq {s t : State} (h : s.Inv) (hc : t.cfg = s.cfg) (hr : t.raster = s.raster) (hd : t.dbuf = s.dbuf)
    (ho : t.out = s.out) : t.Inv := by
  unfold State.Inv; rw [hc, hr, hd, ho]; exact h

theorem inv_addResult {s : State} (h : s.Inv) (k : HostId) (r : OpResult) : (s.addResult k r).Inv := h

theorem inv_withContrast {s : State} (h : s.Inv) (c : Byte) : (s.withContrast c).Inv := h

theorem inv_withScroll {s : State} (h : s.Inv) (m : ScrollMode) : (s.withScroll m).Inv := h

theorem inv_withBegun {s : State} (h : s.Inv) (b : Bool) : (s.withBegun b).Inv := h

theorem inv_withPixelPending {s : State} (h : s.Inv) (b : Bool) : (s.withPixelPending b).Inv := h

theorem inv_withEncoded {s : State} (h : s.Inv) (bs : List Byte) : (s.withEncoded bs).Inv := h

theorem inv_withInput {s : State} (h : s.Inv) (q : List Request) : (s.withInput q).Inv := h

theorem inv_accept {s : State} (h : s.Inv) (i : Instr) (r : Request) (q : List Request) : (accept i r q s).Inv := h

theorem inv_busBoundary {s : State} (h : s.Inv) : (busBoundary s).Inv := by
  unfold State.Inv
  rw [busBoundary_cfg, busBoundary_raster, busBoundary_dbuf]
  exact ⟨h.1, h.2.1, h.2.2.1, h.2.2.2.1, frameBoundary_legal _ h.2.2.2.2⟩

theorem inv_mapRaster {s : State} (h : s.Inv) (g : Nat → Nat → Bool → Bool) : (s.mapRaster g).Inv :=
  ⟨Memory.wf_rewrite h.1 _ _, Memory.below_rewrite h.2.1 (Nat.le_refl _) _, h.2.2⟩

theorem inv_packBuffer {s : State} (h : s.Inv) : (packBuffer s).Inv := by
  unfold State.Inv
  rw [packBuffer_dbuf, packBuffer_cfg, packBuffer_raster, packBuffer_out]
  exact ⟨h.1, h.2.1, Memory.wf_rewrite h.2.2.1 _ _, Memory.below_rewrite h.2.2.2.1 (Nat.le_refl _) _, h.2.2.2.2⟩

theorem inv_emitAll {s : State} (h : s.Inv) {es : List Event} (he : es.all (legalEvent s.cfg) = true) :
    (emitAll es s).Inv := by
  unfold State.Inv
  rw [emitAll_cfg, emitAll_raster, emitAll_dbuf]
  exact ⟨h.1, h.2.1, h.2.2.1, h.2.2.2.1, emitAll_legal es he h.2.2.2.2⟩

theorem legal_syncFrames (s : State) : (syncFrames s).all (legalEvent s.cfg) = true := by
  have h : ∀ c : Cfg, (windowFrames c.dims).all (legalEvent c) = true := by
    rintro ⟨d, v, b, p⟩
    cases d <;> cases v <;> cases b <;> cases p <;> decide
  rw [syncFrames, List.all_append, h s.cfg, List.all_cons, List.all_nil, Bool.and_true, Bool.true_and, legalEvent,
    length_bufferBytes, decide_eq_true rfl]

theorem inv_syncBody {s : State} (h : s.Inv) : (syncBody s).Inv :=
  inv_emitAll (inv_packBuffer h) (legal_syncFrames (packBuffer s))

end Sys2Proof.Machine
end

