-- ==== Sys2Proof/Laws/Exec.lean ====
section
/-! SUPPORT. What the bodies that several operations share can answer: SET_PIXEL's byte access, the rectangle that
DRAW_IMAGE and DRAW_TEXT composite, and the scroll starts; and what a run of frames leaves in the results and the
input. -/

namespace Sys2Proof.Machine

/-! ## SET_PIXEL (R113) -/

/-- Coordinates inside the display are the naturals they stand for, and their byte index is inside the buffer. -/
theorem pixelInRange_nat {d : Dims} {x y : I32} (h : pixelInRange d x.toInt y.toInt = true) :
    (x.toNat : Int) = x.toInt ∧ (y.toNat : Int) = y.toInt ∧ x.toNat < width d ∧ y.toNat < height d
      ∧ byteIndex d x.toNat y.toNat < bufferSize d := by
  simp only [pixelInRange, Bool.and_eq_true, decide_eq_true_eq] at h
  have hx : (x.toNat : Int) = x.toInt := by
    have h1 := BitVec.toInt_eq_toNat_cond x; have := x.isLt; split at h1 <;> omega
  have hy : (y.toNat : Int) = y.toInt := by
    have h1 := BitVec.toInt_eq_toNat_cond y; have := y.isLt; split at h1 <;> omega
  have h1 : x.toNat < width d := by omega
  have h2 : y.toNat < height d := by omega
  refine ⟨hx, hy, h1, h2, ?_⟩
  cases d <;> simp only [byteIndex, bufferSize, pages, width, height] at * <;> omega

theorem execSetPixel_inRange {s : State} {on : Bool} {x y : I32}
    (h : pixelInRange s.cfg.dims x.toInt y.toInt = true) :
    execSetPixel on x y s = complete ((s.withBuffer (Memory.write 0 s.dbuf (byteIndex s.cfg.dims x.toNat y.toNat)
      (setBit (s.bufferByte (byteIndex s.cfg.dims x.toNat y.toNat)) (bitIndex y.toNat) on))).withPixelPending true) := by
  simp only [execSetPixel, h, readBuffer, writeBuffer, if_pos (pixelInRange_nat h).2.2.2.2, if_true]

theorem execSetPixel_outOfRange {s : State} {on : Bool} {x y : I32}
    (h : pixelInRange s.cfg.dims x.toInt y.toInt = false) :
    execSetPixel on x y s = raiseError (.pixelRange x.toInt y.toInt) s := by
  simp [execSetPixel, h]

/-- One bit of a byte after it is set or cleared. -/
theorem getLsbD_setBit : ∀ k < 8, ∀ b < 8, ∀ (on : Bool) (v : Byte),
    (setBit v k on).getLsbD b = if b = k then on else v.getLsbD b := by
  decide +kernel

/-! ## A rectangle (R132 to R135) -/

/-- A pixel of the display after compositing. -/
theorem pixel_compositeBody (ov : Overlay) (img : Image) (x0 y0 x1 y1 : Int) (s : State) {x y : Nat}
    (hx : x < width s.cfg.dims) (hy : y < height s.cfg.dims) :
    (compositeBody ov img x0 y0 x1 y1 s).pixel x y =
      if insideRect x0 y0 x1 y1 x y then
        compose ov (s.pixel x y)
          (classify (resampleAt img (x1 - x0).toNat (y1 - y0).toNat ((x : Int) - x0).toNat ((y : Int) - y0).toNat))
      else s.pixel x y := pixel_mapRaster s _ hx hy

/-- All that a rectangle can answer. -/
theorem drawRect_cases (ov : Overlay) (img : Image) (x0 y0 x1 y1 : Int) (s : State) :
    (rectWellFormed x0 y0 x1 y1 = false ∧ drawRect ov img x0 y0 x1 y1 s = raiseError (.rect x0 y0 x1 y1) s)
    ∨ (rectWellFormed x0 y0 x1 y1 = true ∧
      ((ov = .none ∧ drawRect ov img x0 y0 x1 y1 s = complete s)
      ∨ (ov ≠ .none ∧ rectOversized x0 y0 x1 y1 = true ∧ drawRect ov img x0 y0 x1 y1 s = .refused .rectTooLarge)
      ∨ (ov ≠ .none ∧ rectOversized x0 y0 x1 y1 = false
          ∧ drawRect ov img x0 y0 x1 y1 s = complete (compositeBody ov img x0 y0 x1 y1 s)))) := by
  unfold drawRect
  cases rectWellFormed x0 y0 x1 y1
  · exact .inl ⟨rfl, rfl⟩
  · refine .inr ⟨rfl, ?_⟩
    by_cases hn : ov = .none
    · exact .inl ⟨hn, by rw [if_pos rfl, if_pos hn]⟩
    · cases rectOversized x0 y0 x1 y1
      · exact .inr (.inr ⟨hn, rfl, by rw [if_pos rfl, if_neg hn, if_neg Bool.false_ne_true]⟩)
      · exact .inr (.inl ⟨hn, rfl, by rw [if_pos rfl, if_neg hn, if_pos rfl]⟩)

/-! ## What a run of frames leaves beside the trace -/

theorem frameBoundary_results (n : Nat) (s : State) :
    ∃ l, (frameBoundary n s).results = s.results ++ l ∧ ∀ c ∈ l, c.result = .ok := by
  induction n generalizing s with
  | zero => exact ⟨[], by simp [frameBoundary]⟩
  | succ n ih =>
    simp only [frameBoundary]
    split
    · exact ⟨[], by simp⟩
    · split
      · exact ⟨[], by simp⟩
      · rename_i w _
        obtain ⟨l, h, hl⟩ := ih (runIntruder w (s.takeDraws 1))
        refine ⟨⟨w.host, .ok⟩ :: l, by rw [h]; simp [runIntruder], ?_⟩
        intro c hc
        rcases List.mem_cons.1 hc with rfl | hc
        · rfl
        · exact hl c hc

/-- A frame adds results of other hosts' INVERTs at most, and each is `Ok`. -/
theorem emit_results (e : Event) (s : State) :
    ∃ l, (emit e s).results = s.results ++ l ∧ ∀ c ∈ l, c.result = .ok := frameBoundary_results _ s

theorem emit_results_grow (e : Event) (s : State) : s.results <+: (emit e s).results := by
  obtain ⟨l, h, -⟩ := emit_results e s
  exact ⟨l, h.symm⟩

theorem emitAll_results_grow (es : List Event) (s : State) : s.results <+: (emitAll es s).results := by
  induction es generalizing s with
  | nil => exact List.prefix_refl _
  | cons e es ih => exact (emit_results_grow e s).trans (ih (emit e s))

theorem syncBody_results_grow (s : State) : s.results <+: (syncBody s).results :=
  emitAll_results_grow _ (packBuffer s)

/-! ## Scroll starts (R200) -/

@[simp] theorem scrollPrologue_cfg (s : State) : (scrollPrologue s).cfg = s.cfg := by simp [scrollPrologue]
@[simp] theorem scrollPrologue_storedContrast (s : State) :
    (scrollPrologue s).storedContrast = s.storedContrast := by simp [scrollPrologue]
@[simp] theorem scrollPrologue_raster (s : State) : (scrollPrologue s).raster = s.raster := by simp [scrollPrologue]
@[simp] theorem scrollPrologue_ghostScroll (s : State) : (scrollPrologue s).ghostScroll = s.ghostScroll := by
  simp [scrollPrologue]
@[simp] theorem scrollPrologue_ghostBegun (s : State) : (scrollPrologue s).ghostBegun = s.ghostBegun := by
  simp [scrollPrologue]
@[simp] theorem scrollPrologue_pixelPending (s : State) : (scrollPrologue s).pixelPending = false := by
  simp [scrollPrologue]
@[simp] theorem scrollPrologue_encoded (s : State) : (scrollPrologue s).encoded = s.encoded := by
  simp [scrollPrologue]
@[simp] theorem scrollPrologue_host (s : State) : (scrollPrologue s).host = s.host := by simp [scrollPrologue]
@[simp] theorem scrollPrologue_owner (s : State) : (scrollPrologue s).owner = s.owner := by simp [scrollPrologue]

@[simp] theorem startScroll_cfg (es : List Event) (m : ScrollMode) (s : State) :
    (startScroll es m s).cfg = s.cfg := by simp [startScroll]
@[simp] theorem startScroll_storedContrast (es : List Event) (m : ScrollMode) (s : State) :
    (startScroll es m s).storedContrast = s.storedContrast := by simp [startScroll]
@[simp] theorem startScroll_raster (es : List Event) (m : ScrollMode) (s : State) :
    (startScroll es m s).raster = s.raster := by simp [startScroll]
@[simp] theorem startScroll_ghostScroll (es : List Event) (m : ScrollMode) (s : State) :
    (startScroll es m s).ghostScroll = m := rfl
@[simp] theorem startScroll_ghostBegun (es : List Event) (m : ScrollMode) (s : State) :
    (startScroll es m s).ghostBegun = s.ghostBegun := by simp [startScroll]
@[simp] theorem startScroll_pixelPending (es : List Event) (m : ScrollMode) (s : State) :
    (startScroll es m s).pixelPending = false := by simp [startScroll]
@[simp] theorem startScroll_encoded (es : List Event) (m : ScrollMode) (s : State) :
    (startScroll es m s).encoded = s.encoded := by simp [startScroll]
@[simp] theorem startScroll_host (es : List Event) (m : ScrollMode) (s : State) :
    (startScroll es m s).host = s.host := by simp [startScroll]
@[simp] theorem startScroll_owner (es : List Event) (m : ScrollMode) (s : State) :
    (startScroll es m s).owner = s.owner := by simp [startScroll]

theorem scrollPrologue_out_grows (s : State) : s.out <+: (scrollPrologue s).out :=
  (emit_out_grows _ s).trans (syncBody_out_grows _)

theorem startScroll_out_grows (es : List Event) (m : ScrollMode) (s : State) : s.out <+: (startScroll es m s).out :=
  (scrollPrologue_out_grows s).trans (emitAll_out_grows _ (scrollPrologue s))

/-! ## The frames that operations emit are legal (R85) -/

theorem inv_emit {s : State} (h : s.Inv) {e : Event} (he : legalEvent s.cfg e = true) : (emit e s).Inv :=
  inv_emitAll (es := [e]) h (by simpa using he)

theorem legal_pinEvents (c : Cfg) : (pinEvents c).all (legalEvent c) = true := by
  unfold pinEvents; split <;> rfl

theorem legal_initFramesHead (c : Cfg) : (initFramesHead c).all (legalEvent c) = true := by
  obtain ⟨d, v, b, p⟩ := c
  cases d <;> cases v <;> cases b <;> cases p <;> decide

theorem legal_initFramesTail (c : Cfg) : (initFramesTail c).all (legalEvent c) = true := by
  obtain ⟨d, v, b, p⟩ := c
  cases d <;> cases v <;> cases b <;> cases p <;> decide

theorem legal_clampReports (c : Cfg) (q : Rat) : (clampReports q).all (legalEvent c) = true := by
  unfold clampReports; split <;> rfl

theorem zext8_freq_lt (f : Freq) : (zext8 f).toNat < 8 := by revert f; decide

/-- A non-negative operand below 256 is emitted as itself. -/
theorem toNat_low8 {v : I32} (h0 : 0 ≤ v.toInt) (h1 : v.toInt < 256) : (low8 v).toNat = v.toInt.toNat := by
  have h := BitVec.toInt_eq_toNat_cond v
  have := v.isLt
  simp only [low8, BitVec.toNat_setWidth]
  split at h <;> omega

theorem pages_le (d : Dims) : pages d ≤ 8 := by cases d <;> decide

theorem width_le (d : Dims) : width d ≤ 128 := by cases d <;> decide

theorem legal_horizontalSetup {c : Cfg} {sp ep : I32} (hdir : HDir) (f : Freq)
    (h : pageRangeOk c.dims sp.toInt ep.toInt = true) : (horizontalSetup hdir f sp ep).all (legalEvent c) = true := by
  simp only [pageRangeOk, Bool.and_eq_true, decide_eq_true_eq] at h
  have hP := pages_le c.dims
  have h1 : sp.toInt.toNat ≤ ep.toInt.toNat := by omega
  have h2 : ep.toInt.toNat < pages c.dims := by omega
  cases hdir <;> simp [horizontalSetup, legalEvent, encRightHorizontalScroll, encLeftHorizontalScroll, givenFrame,
    opcode, toNat_low8 (v := sp) (by omega) (by omega), toNat_low8 (v := ep) (by omega) (by omega), zext8_freq_lt f,
    h1, h2]

theorem legal_diagonalSetup {c : Cfg} {voff : Byte} (hdir : HDir) (f : Freq) (sp ep fixed rows : Byte)
    (h : voff.toNat < width c.dims) : (diagonalSetup hdir f sp ep voff fixed rows).all (legalEvent c) = true := by
  cases hdir <;> simp [diagonalSetup, legalEvent, encSetVerticalScrollArea, encVerticalAndRightHorizontalScroll,
    encVerticalAndLeftHorizontalScroll, givenFrame, opcode, zext8_freq_lt f, h]

theorem legal_verticalSetup (c : Cfg) (vdir : VDir) (f : Freq) :
    (verticalSetup c.dims vdir f).all (legalEvent c) = true := by
  have h : ∀ (d : Dims) (v : VDir), (low8Nat (verticalOffset d v)).toNat < width d := by
    intro d v; cases d <;> cases v <;> decide
  exact legal_diagonalSetup .left f _ _ _ _ (h c.dims vdir)

/-- The operands a rule gives leave a frame as long as its opcode says (R79). -/
theorem wellSizedFrame_of_givenFrame {c : Cfg} {bs : List Byte} (h : givenFrame c bs = true) :
    wellSizedFrame bs = true := by
  unfold givenFrame at h
  split at h <;>
    simp only [Bool.and_eq_true, Bool.or_eq_true, decide_eq_true_eq, List.mem_cons, List.not_mem_nil, or_false,
      Prod.mk.injEq, Bool.false_eq_true] at h
  · rcases h with h | h | h | h | h | h | h | h | h | h <;> subst h <;> rfl
  · rcases h with h | h | h | h | h | h | h | h | h
    · subst h; rfl
    all_goals (obtain ⟨rfl, -⟩ := h; rfl)
  · rcases h with h | h | h
    · subst h; rfl
    all_goals (obtain ⟨rfl, -⟩ := h; rfl)
  · rcases h.1.1.1 with h | h <;> subst h <;> rfl
  · rcases h.1.1.1.1.1.1 with h | h <;> subst h <;> rfl

/-! ## Hazards (R280) -/

/-- pixelLost is named exactly for a SyncBody while a SET_PIXEL write waits. -/
theorem pixelLost_mem_hazards (i : Instr) (s : State) :
    Hazard.pixelLost ∈ hazards i s ↔ runsSync i s = true ∧ s.pixelPending = true := by
  unfold hazards
  cases runsSync i s <;> cases s.pixelPending <;> (repeat' split) <;> simp_all

/-! ## Runs of events in quiet states -/

/-- `s` after events with nothing between them. -/
def State.emitted (s : State) (es : List Event) : State :=
  (s.addEvents (traceFrom s.draws es)).takeDraws (drawsIn es)

theorem emitted_append (s : State) (es es' : List Event) : (s.emitted es).emitted es' = s.emitted (es ++ es') := by
  simp [State.emitted, State.addEvents, State.takeDraws, traceFrom_append, drawsIn_append, Nat.add_assoc]

theorem quiet_emitted {s : State} (h : s.Quiet) (es : List Event) : (s.emitted es).Quiet := quiet_congr rfl rfl h

theorem complete_emitted (s : State) (es : List Event) : complete (s.emitted es) = .next (s.emittedOk es) := rfl

theorem emitAll_eq_emitted {s : State} (h : s.Quiet) (es : List Event) : emitAll es s = s.emitted es :=
  emitAll_quiet es h

theorem emit_eq_emitted {s : State} (h : s.Quiet) (e : Event) : emit e s = s.emitted [e] := emitAll_quiet [e] h

/-- SyncBody after events, in a quiet state: the buffer is packed and the three frames follow. -/
theorem syncBody_emitted {s : State} (h : s.Quiet) (es : List Event) :
    syncBody (s.emitted es) = (packBuffer s).emitted (es ++ syncFrames (packBuffer s)) := by
  have hp : packBuffer (s.emitted es) = (packBuffer s).emitted es := rfl
  have hf : syncFrames ((packBuffer s).emitted es) = syncFrames (packBuffer s) := rfl
  have hq : ((packBuffer s).emitted es).Quiet := quiet_congr rfl rfl h
  rw [syncBody, hp, hf, emitAll_eq_emitted hq, emitted_append]

theorem scrollPrologue_quiet {s : State} (h : s.Quiet) :
    scrollPrologue s = (packBuffer s).emitted (.cmd encScrollDeactivate :: syncFrames (packBuffer s)) := by
  rw [scrollPrologue, emit_eq_emitted h, syncBody_emitted h]; rfl

theorem startScroll_quiet {s : State} (h : s.Quiet) (es : List Event) (m : ScrollMode) :
    startScroll es m s = ((packBuffer s).withScroll m).emitted
      ((.cmd encScrollDeactivate :: syncFrames (packBuffer s)) ++ (es ++ [.cmd encScrollActivate])) := by
  have hq : ((packBuffer s).emitted (.cmd encScrollDeactivate :: syncFrames (packBuffer s))).Quiet :=
    quiet_congr rfl rfl h
  rw [startScroll, scrollPrologue_quiet h, emitAll_eq_emitted hq, emitted_append]; rfl

end Sys2Proof.Machine
end

