-- ==== Sys2Proof/Laws/PerInstr.lean ====
section
/-! SUPPORT. The family `LeadingByte`: the first element of every instruction's words is a byte, the tag that R74 gives
the operation or an opcode of the command that R78 names. -/

namespace Sys2Proof.Laws.LeadingByte

open Sys2Proof

/-- The tags of R74 and the opcode bytes of R78, written out: the bytes that may lead each instruction's words. -/
def leads : Instr → List Byte
  | .begin => [0x01]
  | .clear => [0x02]
  | .sync => [0x03]
  | .setPixel _ _ _ => [0x04]
  | .drawImage _ _ _ _ _ _ => [0x05]
  | .drawText _ _ _ _ _ => [0x06]
  | .setContrast _ => [0x07]
  | .dim _ => [0x08]
  | .invert _ => [0x09]
  | .scrollHorizontal _ _ _ _ => [0x0A]
  | .scrollVertical _ _ => [0x0B]
  | .scrollDiagonal _ _ _ _ _ _ _ => [0x0C]
  | .stopScroll => [0x0D]
  | .stop => [0x0E]
  | .cmdDisplayOff => [0xAE]
  | .cmdDisplayOn => [0xAF]
  | .cmdSetDisplayClockDiv _ => [0xD5]
  | .cmdSetMultiplexRatio _ => [0xA8]
  | .cmdSetDisplayOffset _ => [0xD3]
  | .cmdSetStartLine _ => (List.range 64).map fun k => BitVec.ofNat 8 (0x40 + k)
  | .cmdSetChargePump _ => [0x8D]
  | .cmdSetMemoryAddressingMode _ => [0x20]
  | .cmdSetSegmentRemap _ => [0xA0, 0xA1]
  | .cmdSetComScanDirection _ => [0xC0, 0xC8]
  | .cmdSetComPinsConfiguration _ => [0xDA]
  | .cmdSetContrast _ => [0x81]
  | .cmdSetPrechargePeriod _ => [0xD9]
  | .cmdSetVcomhDeselectLevel _ => [0xDB]
  | .cmdResumeRamContentDisplay => [0xA4]
  | .cmdSetNormalDisplay => [0xA6]
  | .cmdSetInverseDisplay => [0xA7]
  | .cmdSetColumnAddress _ _ => [0x21]
  | .cmdSetPageAddress _ _ => [0x22]
  | .cmdRightHorizontalScroll _ _ _ => [0x26]
  | .cmdLeftHorizontalScroll _ _ _ => [0x27]
  | .cmdVerticalAndRightHorizontalScroll _ _ _ _ => [0x29]
  | .cmdVerticalAndLeftHorizontalScroll _ _ _ _ => [0x2A]
  | .cmdSetVerticalScrollArea _ _ => [0xA3]
  | .cmdScrollDeactivate => [0x2E]
  | .cmdScrollActivate => [0x2F]

/-- The instruction's words begin with one of its leading bytes; a host operation's is below 0x10 and no opcode of the
26 commands, a command's is its own command's opcode. -/
def Statement (i : Instr) : Prop :=
  ∃ b ∈ leads i, (encode i).head? = some (.byte b)
    ∧ (match i.port with
      | .host => b.toNat < 0x10 ∧ commandOf b = none
      | .encoder => 0x10 ≤ b.toNat ∧ (frameLength b = some (encode i).length))

theorem begin : Statement .begin :=
  ⟨0x01, List.mem_singleton.2 rfl, rfl, by decide, rfl⟩

theorem clear : Statement .clear :=
  ⟨0x02, List.mem_singleton.2 rfl, rfl, by decide, rfl⟩

theorem sync : Statement .sync :=
  ⟨0x03, List.mem_singleton.2 rfl, rfl, by decide, rfl⟩

theorem setPixel (on : Bool) (x : I32) (y : I32) : Statement (.setPixel on x y) :=
  ⟨0x04, List.mem_singleton.2 rfl, rfl, by decide, rfl⟩

theorem drawImage (ov : Overlay) (img : Image) (x0 : I32) (y0 : I32) (x1 : I32) (y1 : I32) : Statement (.drawImage ov img x0 y0 x1 y1) :=
  ⟨0x05, List.mem_singleton.2 rfl, rfl, by decide, rfl⟩

theorem drawText (ov : Overlay) (text : String) (font : Font) (x0 : I32) (y0 : I32) : Statement (.drawText ov text font x0 y0) :=
  ⟨0x06, List.mem_singleton.2 rfl, rfl, by decide, rfl⟩

theorem setContrast (factor : Rat) : Statement (.setContrast factor) :=
  ⟨0x07, List.mem_singleton.2 rfl, rfl, by decide, rfl⟩

theorem dim (on : Bool) : Statement (.dim on) :=
  ⟨0x08, List.mem_singleton.2 rfl, rfl, by decide, rfl⟩

theorem invert (on : Bool) : Statement (.invert on) :=
  ⟨0x09, List.mem_singleton.2 rfl, rfl, by decide, rfl⟩

theorem scrollHorizontal (hdir : HDir) (freq : Freq) (sp : I32) (ep : I32) : Statement (.scrollHorizontal hdir freq sp ep) :=
  ⟨0x0A, List.mem_singleton.2 rfl, rfl, by decide, rfl⟩

theorem scrollVertical (vdir : VDir) (freq : Freq) : Statement (.scrollVertical vdir freq) :=
  ⟨0x0B, List.mem_singleton.2 rfl, rfl, by decide, rfl⟩

theorem scrollDiagonal (hdir : HDir) (freq : Freq) (sp : I32) (ep : I32) (voff : I32) (fixed : I32) (rows : I32) : Statement (.scrollDiagonal hdir freq sp ep voff fixed rows) :=
  ⟨0x0C, List.mem_singleton.2 rfl, rfl, by decide, rfl⟩

theorem stopScroll : Statement .stopScroll :=
  ⟨0x0D, List.mem_singleton.2 rfl, rfl, by decide, rfl⟩

theorem stop : Statement .stop :=
  ⟨0x0E, List.mem_singleton.2 rfl, rfl, by decide, rfl⟩

theorem cmdDisplayOff : Statement .cmdDisplayOff :=
  ⟨0xAE, List.mem_singleton.2 rfl, rfl, by decide, rfl⟩

theorem cmdDisplayOn : Statement .cmdDisplayOn :=
  ⟨0xAF, List.mem_singleton.2 rfl, rfl, by decide, rfl⟩

theorem cmdSetDisplayClockDiv (v : Byte) : Statement (.cmdSetDisplayClockDiv v) :=
  ⟨0xD5, List.mem_singleton.2 rfl, rfl, by decide, rfl⟩

theorem cmdSetMultiplexRatio (v : Byte) : Statement (.cmdSetMultiplexRatio v) :=
  ⟨0xA8, List.mem_singleton.2 rfl, rfl, by decide, rfl⟩

theorem cmdSetDisplayOffset (v : Byte) : Statement (.cmdSetDisplayOffset v) :=
  ⟨0xD3, List.mem_singleton.2 rfl, rfl, by decide, rfl⟩

theorem cmdSetStartLine (l : BitVec 6) : Statement (.cmdSetStartLine l) := by
  have h : ∀ l : BitVec 6, (opcode .setStartLine ||| zext8 l) ∈ leads (.cmdSetStartLine 0)
      ∧ 0x10 ≤ (opcode .setStartLine ||| zext8 l).toNat ∧ frameLength (opcode .setStartLine ||| zext8 l) = some 1 := by
    decide +kernel
  exact ⟨_, (h l).1, rfl, (h l).2⟩

theorem cmdSetChargePump (en : Bool) : Statement (.cmdSetChargePump en) :=
  ⟨0x8D, List.mem_singleton.2 rfl, rfl, by decide, rfl⟩

theorem cmdSetMemoryAddressingMode (m : Byte) : Statement (.cmdSetMemoryAddressingMode m) :=
  ⟨0x20, List.mem_singleton.2 rfl, rfl, by decide, rfl⟩

theorem cmdSetSegmentRemap (r : BitVec 1) : Statement (.cmdSetSegmentRemap r) := by
  have h : ∀ r : BitVec 1, (opcode .setSegmentRemap ||| zext8 r) ∈ leads (.cmdSetSegmentRemap 0)
      ∧ 0x10 ≤ (opcode .setSegmentRemap ||| zext8 r).toNat
      ∧ frameLength (opcode .setSegmentRemap ||| zext8 r) = some 1 := by
    decide
  exact ⟨_, (h r).1, rfl, (h r).2⟩

theorem cmdSetComScanDirection (d : BitVec 1) : Statement (.cmdSetComScanDirection d) := by
  have h : ∀ d : BitVec 1, (opcode .setComScanDirection ||| (zext8 d <<< 3)) ∈ leads (.cmdSetComScanDirection 0)
      ∧ 0x10 ≤ (opcode .setComScanDirection ||| (zext8 d <<< 3)).toNat
      ∧ frameLength (opcode .setComScanDirection ||| (zext8 d <<< 3)) = some 1 := by
    decide
  exact ⟨_, (h d).1, rfl, (h d).2⟩

theorem cmdSetComPinsConfiguration (v : Byte) : Statement (.cmdSetComPinsConfiguration v) :=
  ⟨0xDA, List.mem_singleton.2 rfl, rfl, by decide, rfl⟩

theorem cmdSetContrast (c : Byte) : Statement (.cmdSetContrast c) :=
  ⟨0x81, List.mem_singleton.2 rfl, rfl, by decide, rfl⟩

theorem cmdSetPrechargePeriod (v : Byte) : Statement (.cmdSetPrechargePeriod v) :=
  ⟨0xD9, List.mem_singleton.2 rfl, rfl, by decide, rfl⟩

theorem cmdSetVcomhDeselectLevel (v : Byte) : Statement (.cmdSetVcomhDeselectLevel v) :=
  ⟨0xDB, List.mem_singleton.2 rfl, rfl, by decide, rfl⟩

theorem cmdResumeRamContentDisplay : Statement .cmdResumeRamContentDisplay :=
  ⟨0xA4, List.mem_singleton.2 rfl, rfl, by decide, rfl⟩

theorem cmdSetNormalDisplay : Statement .cmdSetNormalDisplay :=
  ⟨0xA6, List.mem_singleton.2 rfl, rfl, by decide, rfl⟩

theorem cmdSetInverseDisplay : Statement .cmdSetInverseDisplay :=
  ⟨0xA7, List.mem_singleton.2 rfl, rfl, by decide, rfl⟩

theorem cmdSetColumnAddress (first : Byte) (last : Byte) : Statement (.cmdSetColumnAddress first last) :=
  ⟨0x21, List.mem_singleton.2 rfl, rfl, by decide, rfl⟩

theorem cmdSetPageAddress (first : Byte) (last : Byte) : Statement (.cmdSetPageAddress first last) :=
  ⟨0x22, List.mem_singleton.2 rfl, rfl, by decide, rfl⟩

theorem cmdRightHorizontalScroll (sp : Byte) (f : Freq) (ep : Byte) : Statement (.cmdRightHorizontalScroll sp f ep) :=
  ⟨0x26, List.mem_singleton.2 rfl, rfl, by decide, rfl⟩

theorem cmdLeftHorizontalScroll (sp : Byte) (f : Freq) (ep : Byte) : Statement (.cmdLeftHorizontalScroll sp f ep) :=
  ⟨0x27, List.mem_singleton.2 rfl, rfl, by decide, rfl⟩

theorem cmdVerticalAndRightHorizontalScroll (sp : Byte) (f : Freq) (ep : Byte) (vo : Byte) : Statement (.cmdVerticalAndRightHorizontalScroll sp f ep vo) :=
  ⟨0x29, List.mem_singleton.2 rfl, rfl, by decide, rfl⟩

theorem cmdVerticalAndLeftHorizontalScroll (sp : Byte) (f : Freq) (ep : Byte) (vo : Byte) : Statement (.cmdVerticalAndLeftHorizontalScroll sp f ep vo) :=
  ⟨0x2A, List.mem_singleton.2 rfl, rfl, by decide, rfl⟩

theorem cmdSetVerticalScrollArea (fr : Byte) (sr : Byte) : Statement (.cmdSetVerticalScrollArea fr sr) :=
  ⟨0xA3, List.mem_singleton.2 rfl, rfl, by decide, rfl⟩

theorem cmdScrollDeactivate : Statement .cmdScrollDeactivate :=
  ⟨0x2E, List.mem_singleton.2 rfl, rfl, by decide, rfl⟩

theorem cmdScrollActivate : Statement .cmdScrollActivate :=
  ⟨0x2F, List.mem_singleton.2 rfl, rfl, by decide, rfl⟩

end Sys2Proof.Laws.LeadingByte
end

