-- ==== Sys2Proof/Tests/Slice0.lean ====
section
/-! SUPPORT. The model's own tests: the well-formedness checks, words written out from the spec's encodings, one-step
tests whose expected results are the vectors of spec/95_test_vectors.md (named in each docstring), and for every
obligation with hypotheses a concrete case that meets them all. -/

namespace Sys2Proof.Machine.Tests

open Sys2Proof Sys2Proof.Machine

/-! ## Small states and operands -/

def white1 : Image := ⟨1, 1, [⟨255, 255, 255⟩]⟩
def black1 : Image := ⟨1, 1, [⟨0, 0, 0⟩]⟩
def white2 : Image := ⟨2, 1, [⟨255, 255, 255⟩, ⟨255, 255, 255⟩]⟩

def s64 : State := State.reset
def s32 : State := State.construct ⟨.w128h32, .external, .spi, false⟩
def s16 : State := State.construct ⟨.w96h16, .internal, .i2c, true⟩

/-- A request of host 0 alone, in order. -/
def req (ws : List Slot) : Request := ⟨0, true, false, .host, ws⟩

/-- `s` with one operation handed over. -/
def holding (s : State) (ws : List Slot) : State := s.withInput [req ws]

/-- The answer is a next state that satisfies `p`. -/
def nextWith (p : State → Bool) : Answer → Bool
  | .next t => p t
  | .fault _ => false
  | .refused _ => false

/-- The result of the one operation that ended, if the answer is a next state. -/
def resultOf : Answer → Option (List Completed)
  | .next t => some t.results
  | .fault _ => none
  | .refused _ => none

/-- Only pixel (95, 15) ON on 96 × 16 (V-S4). -/
def corner16 : State := s16.withRaster [(15 * 96 + 95, true)]

/-! ## Well-formedness (R72) -/

/-- R72: an image has sw ≥ 1, sh ≥ 1 and sw·sh pixels; one ill-formed image for each check. -/
theorem test_image_wellFormed :
    (Instr.drawImage .full white1 0 0 8 8).wellFormed = true
    ∧ (Instr.drawImage .full ⟨0, 1, []⟩ 0 0 8 8).wellFormed = false
    ∧ (Instr.drawImage .full ⟨1, 0, []⟩ 0 0 8 8).wellFormed = false
    ∧ (Instr.drawImage .full ⟨2, 1, [⟨0, 0, 0⟩]⟩ 0 0 8 8).wellFormed = false := by decide

/-- The same images are refused by name where they are decoded. -/
theorem test_malformed_image_refused :
    ∀ img ∈ [Image.mk 0 1 [], ⟨1, 0, []⟩, ⟨2, 1, [⟨0, 0, 0⟩]⟩],
      decode .host (.byte 5 :: .byte 0 :: .image img :: List.replicate 16 (.byte 0)) = .error .malformedImage := by
  decide

/-! ## Decoding: words written out from R71, R74 and the programs Q1 to Q5 -/

/-- R74: the operations that are a tag alone. -/
theorem test_decode_bare_tags :
    decode .host [.byte 0x01] = .ok .begin ∧ decode .host [.byte 0x02] = .ok .clear
    ∧ decode .host [.byte 0x03] = .ok .sync ∧ decode .host [.byte 0x0D] = .ok .stopScroll
    ∧ decode .host [.byte 0x0E] = .ok .stop := by decide

/-- Q4 step 2 (`SET_PIXEL 10, 9, 1`), and a negative coordinate. -/
theorem test_decode_setPixel :
    decode .host ([0x04, 0x01, 0x0A, 0x00, 0x00, 0x00, 0x09, 0x00, 0x00, 0x00].map .byte)
      = .ok (.setPixel true 10 9)
    ∧ decode .host ([0x04, 0x00, 0xFF, 0xFF, 0xFF, 0xFF, 0x00, 0x00, 0x00, 0x80].map .byte)
      = .ok (.setPixel false (-1) (BitVec.ofInt 32 (-2147483648))) := by decide

/-- Q3 step 3 (`DRAW_IMAGE black1, (0,8), (128,16), OFF_PIXELS`). -/
theorem test_decode_drawImage :
    decode .host (.byte 0x05 :: .byte 0x02 :: .image black1 :: ([0x00, 0x00, 0x00, 0x00, 0x08, 0x00, 0x00, 0x00,
      0x80, 0x00, 0x00, 0x00, 0x10, 0x00, 0x00, 0x00].map .byte)) = .ok (.drawImage .offPixels black1 0 8 128 16) := by
  decide

/-- R112: an alpha channel is dropped. -/
theorem test_decode_drawImage_alpha :
    decode .host (.byte 0x05 :: .byte 0x03 :: .imageAlpha white1 [0x00] :: List.replicate 16 (.byte 0))
      = .ok (.drawImage .none white1 0 0 0 0) := by decide

/-- R74: text, font, then the two coordinates. -/
theorem test_decode_drawText :
    decode .host (.byte 0x06 :: .byte 0x01 :: .text "Hi" :: .font 7 :: ([0x05, 0x00, 0x00, 0x00, 0x06, 0x00, 0x00,
      0x00].map .byte)) = .ok (.drawText .onPixels "Hi" 7 5 6) := by decide

/-- Q2 steps 2, 3 and 4. -/
theorem test_decode_contrast_dim_invert :
    decode .host [.byte 0x07, .factor (.ratio (1 / 2))] = .ok (.setContrast (1 / 2))
    ∧ decode .host [.byte 0x08, .byte 0x01] = .ok (.dim true)
    ∧ decode .host [.byte 0x09, .byte 0x01] = .ok (.invert true) := ⟨rfl, rfl, rfl⟩

/-- Q3 step 4 (mode = hdir 0 | freq 3 << 1), Q5 step 3 (mode = vdir 1 | freq 7 << 1), and R74's five-operand record. -/
theorem test_decode_scrolls :
    decode .host ([0x0A, 0x06, 0x00, 0x00, 0x00, 0x00, 0x03, 0x00, 0x00, 0x00].map .byte)
      = .ok (.scrollHorizontal .left 3 0 3)
    ∧ decode .host ([0x0B, 0x0F].map .byte) = .ok (.scrollVertical .down 7)
    ∧ decode .host ([0x0C, 0x05, 0x01, 0x00, 0x00, 0x00, 0x02, 0x00, 0x00, 0x00, 0x03, 0x00, 0x00, 0x00, 0x04, 0x00,
        0x00, 0x00, 0x40, 0x00, 0x00, 0x00].map .byte) = .ok (.scrollDiagonal .right 2 1 2 3 4 64) := by decide

/-- R150 to R159: the configuration commands, as V-B1's frames. -/
theorem test_decode_configuration_commands :
    decode .encoder ([0xAE].map .byte) = .ok .cmdDisplayOff
    ∧ decode .encoder ([0xAF].map .byte) = .ok .cmdDisplayOn
    ∧ decode .encoder ([0xD5, 0x80].map .byte) = .ok (.cmdSetDisplayClockDiv 0x80)
    ∧ decode .encoder ([0xA8, 0x3F].map .byte) = .ok (.cmdSetMultiplexRatio 0x3F)
    ∧ decode .encoder ([0xD3, 0x00].map .byte) = .ok (.cmdSetDisplayOffset 0x00)
    ∧ decode .encoder ([0x40].map .byte) = .ok (.cmdSetStartLine 0)
    ∧ decode .encoder ([0x7F].map .byte) = .ok (.cmdSetStartLine 63)
    ∧ decode .encoder ([0x8D, 0x14].map .byte) = .ok (.cmdSetChargePump true)
    ∧ decode .encoder ([0x8D, 0x10].map .byte) = .ok (.cmdSetChargePump false)
    ∧ decode .encoder ([0x20, 0x00].map .byte) = .ok (.cmdSetMemoryAddressingMode 0x00)
    ∧ decode .encoder ([0xA1].map .byte) = .ok (.cmdSetSegmentRemap 1)
    ∧ decode .encoder ([0xC8].map .byte) = .ok (.cmdSetComScanDirection 1) := by decide

/-- R160 to R168. -/
theorem test_decode_panel_commands :
    decode .encoder ([0xDA, 0x12].map .byte) = .ok (.cmdSetComPinsConfiguration 0x12)
    ∧ decode .encoder ([0x81, 0xCF].map .byte) = .ok (.cmdSetContrast 0xCF)
    ∧ decode .encoder ([0xD9, 0xF1].map .byte) = .ok (.cmdSetPrechargePeriod 0xF1)
    ∧ decode .encoder ([0xDB, 0x40].map .byte) = .ok (.cmdSetVcomhDeselectLevel 0x40)
    ∧ decode .encoder ([0xA4].map .byte) = .ok .cmdResumeRamContentDisplay
    ∧ decode .encoder ([0xA6].map .byte) = .ok .cmdSetNormalDisplay
    ∧ decode .encoder ([0xA7].map .byte) = .ok .cmdSetInverseDisplay
    ∧ decode .encoder ([0x21, 0x00, 0x7F].map .byte) = .ok (.cmdSetColumnAddress 0x00 0x7F)
    ∧ decode .encoder ([0x22, 0x00, 0x07].map .byte) = .ok (.cmdSetPageAddress 0x00 0x07) := by decide

/-- R169 to R175, the frames of V-R5, V-R6, V-R11 and V-R12. -/
theorem test_decode_scroll_commands :
    decode .encoder ([0x26, 0x00, 0x00, 0x00, 0x07, 0x00, 0xFF].map .byte) = .ok (.cmdRightHorizontalScroll 0 0 7)
    ∧ decode .encoder ([0x27, 0x00, 0x03, 0x05, 0x03, 0x00, 0xFF].map .byte) = .ok (.cmdLeftHorizontalScroll 3 5 3)
    ∧ decode .encoder ([0x29, 0x00, 0x00, 0x00, 0x07, 0x01].map .byte)
      = .ok (.cmdVerticalAndRightHorizontalScroll 0 0 7 1)
    ∧ decode .encoder ([0x2A, 0x00, 0x00, 0x02, 0x01, 0x5F].map .byte)
      = .ok (.cmdVerticalAndLeftHorizontalScroll 0 2 1 0x5F)
    ∧ decode .encoder ([0xA3, 0x00, 0x10].map .byte) = .ok (.cmdSetVerticalScrollArea 0x00 0x10)
    ∧ decode .encoder ([0x2E].map .byte) = .ok .cmdScrollDeactivate
    ∧ decode .encoder ([0x2F].map .byte) = .ok .cmdScrollActivate := by decide

/-- R85: opcodes the block never emits (entire display on, page start address, zoom) are no command of the 26. -/
theorem test_other_opcodes_refused :
    ∀ op ∈ [(0xA5 : Byte), 0xB0, 0xB7, 0xD6, 0x00, 0x1F, 0xC1, 0xA2],
      decode .encoder [.byte op] = .error (.unknownOpcode op) := by decide

/-- R79: a frame that is cut short, or goes on too long, is no frame. -/
theorem test_frame_length_refused :
    decode .encoder ([0x27, 0x00, 0x03, 0x05, 0x03, 0x00].map .byte) = .error (.wrongFrameLength 0x27)
    ∧ decode .encoder ([0xAE, 0x00].map .byte) = .error (.wrongFrameLength 0xAE) := by decide

/-! ## Steps -/

/-- R21, R245: with nothing handed over the block waits. -/
theorem test_idle_step : step s64 = .next s64 := rfl

/-- V-P2: `SET_PIXEL 5, 13, 1` sets bit 5 of byte 133. -/
theorem test_setPixel_sets :
    nextWith (fun t => decide (t.dbuf = [(133, 0x20)] ∧ t.raster = [] ∧ t.out = [] ∧ t.results = [⟨0, .ok⟩]))
      (step (holding s64 ([0x04, 0x01, 0x05, 0, 0, 0, 0x0D, 0, 0, 0].map .byte))) = true := by decide +kernel

/-- V-P9: clearing bit 5 of 0xFF leaves 0xDF. -/
theorem test_setPixel_clears :
    nextWith (fun t => decide (t.bufferByte 133 = 0xDF))
      (exec (.setPixel false 5 13) (s64.withBuffer [(133, 0xFF)])) = true := by decide +kernel

/-- V-P3, V-P7: the last pixel of the display. -/
theorem test_setPixel_corners :
    nextWith (fun t => decide (t.dbuf = [(1023, 0x80)])) (exec (.setPixel true 127 63) s64) = true
    ∧ nextWith (fun t => decide (t.dbuf = [(191, 0x80)])) (exec (.setPixel true 95 15) s16) = true := by
  decide +kernel

/-- V-P12, V-P14, V-P16, V-P18: one past the display. -/
theorem test_setPixel_out_of_range :
    resultOf (exec (.setPixel true (-1) 0) s64) = some [⟨0, .error (.pixelRange (-1) 0)⟩]
    ∧ resultOf (exec (.setPixel true 0 64) s64) = some [⟨0, .error (.pixelRange 0 64)⟩]
    ∧ resultOf (exec (.setPixel true 96 0) s16) = some [⟨0, .error (.pixelRange 96 0)⟩]
    ∧ resultOf (exec (.setPixel true 0 32) s32) = some [⟨0, .error (.pixelRange 0 32)⟩] := by decide +kernel

/-- §2.2: sums of 192 are OFF and 193 ON, wherever the light is. -/
theorem test_classify :
    [Rgb.mk 0 0 0, ⟨64, 64, 64⟩, ⟨64, 64, 65⟩, ⟨100, 50, 42⟩, ⟨192, 0, 0⟩, ⟨193, 0, 0⟩, ⟨255, 0, 0⟩, ⟨0, 0, 193⟩,
      ⟨255, 255, 255⟩].map classify = [false, false, true, false, false, true, true, true, true] := by decide

/-- V-S7: CLEAR turns the raster OFF and writes neither dbuf nor the trace. -/
theorem test_clear :
    nextWith (fun t => decide (t.raster = [] ∧ t.dbuf = [(7, 0x55)] ∧ t.out = []))
      (exec .clear ((s16.withRaster [(4 * 96 + 3, true)]).withBuffer [(7, 0x55)])) = true := by decide +kernel

/-- V-S4: the three frames of SYNC with (95, 15) ON. -/
theorem test_sync_frames : ∃ t, exec .sync corner16 = .next t ∧ framesOf t.out =
    [.cmd [0x21, 0x00, 0x5F], .cmd [0x22, 0x00, 0x01],
      .data (List.replicate 191 0x00 ++ [0x80])] := by
  have h : framesOf (syncFrames (packBuffer corner16)) = [.cmd [0x21, 0x00, 0x5F], .cmd [0x22, 0x00, 0x01],
      .data (List.replicate 191 0x00 ++ [0x80])] := by decide +kernel
  refine ⟨_, rfl, ?_⟩
  have hq : (packBuffer corner16).Quiet := by decide +kernel
  exact (framesOf_emitAll hq _).trans h

/-- V-S6: a SET_PIXEL write is packed over. -/
theorem test_sync_overwrites : (packBuffer (s16.withBuffer [(133, 0x20)])).dbuf = [] := by decide +kernel

/-- V-C3, V-C5, V-C6 (on 96 × 16): clipping at the top left, and rectangles wholly off the display. -/
theorem test_drawImage_clips :
    nextWith (fun t => decide (t.raster = [(0, true), (1, true), (96, true), (97, true)]))
      (exec (.drawImage .full white1 (-2) (-2) 2 2) s16) = true
    ∧ nextWith (fun t => decide (t.raster = [])) (exec (.drawImage .full white1 98 0 100 10) s16) = true
    ∧ nextWith (fun t => decide (t.raster = [])) (exec (.drawImage .full white1 (-10) 0 0 5) s16) = true := by
  decide +kernel

/-- V-C9, V-C8: a malformed rectangle fails, even with NONE. V-C11: w = 2^31 is refused. -/
theorem test_drawImage_rect_checks :
    resultOf (exec (.drawImage .none white1 0 5 5 5) s64) = some [⟨0, .error (.rect 0 5 5 5)⟩]
    ∧ resultOf (exec (.drawImage .full white1 5 0 4 5) s64) = some [⟨0, .error (.rect 5 0 4 5)⟩]
    ∧ exec (.drawImage .full white1 (-1) 0 2147483647 10) s64 = .refused .rectTooLarge := ⟨rfl, rfl, rfl⟩

/-- R140, R134: a text that measures 2 x 1, all ON, drawn half off the left edge lights pixel (0, 0) alone. -/
theorem test_drawText :
    exec (.drawText .onPixels "Hi" 0 (-1) 0) s16 = drawRasterised .onPixels (rasterize 0 "Hi") (-1) 0 s16
    ∧ nextWith (fun t => decide (t.raster = [(0, true)] ∧ t.out = [])) (drawRasterised .onPixels ⟨white2, 2, 1⟩ (-1) 0 s16)
      = true := ⟨rfl, by decide +kernel⟩

/-- R140, R133: an end beyond 2^31 − 1 is refused whatever the overlay; a side beyond it is refused but for NONE. -/
theorem test_drawText_sizes :
    drawRasterised .none ⟨white1, 2, 1⟩ 2147483646 0 s16 = .refused .textEndTooLarge
    ∧ drawRasterised .full ⟨white1, 2147483648, 1⟩ (-10) 0 s16 = .refused .rectTooLarge
    ∧ resultOf (drawRasterised .none ⟨white1, 2147483648, 1⟩ (-10) 0 s16) = some [⟨0, .ok⟩] := ⟨rfl, rfl, rfl⟩

/-- V-K1 to V-K9: the contrast conversion, ties half up. -/
theorem test_contrast_values :
    [(-3 / 10 : Rat), 0, 1 / 510, 1 / 5, 1 / 2, 812 / 1000, 1, 12 / 10, 3 / 510].map
      (fun q => contrastByte (clampFactor q)) = [0x00, 0x00, 0x01, 0x33, 0x80, 0xCF, 0xFF, 0xFF, 0x02] := by
  decide +kernel

/-- V-K1, V-K2, V-K8: a report exactly when clamping changed the factor. -/
theorem test_contrast_reports :
    [(-3 / 10 : Rat), 0, 1, 12 / 10].map clampReports
      = [[.report .contrastClamped], [], [], [.report .contrastClamped]] := by decide +kernel

/-- V-K4: SET_CONTRAST 0.2 stores 0x33 and sends it. -/
theorem test_setContrast : ∃ t, exec (.setContrast (1 / 5)) s64 = .next t ∧ t.storedContrast = 0x33
    ∧ framesOf t.out = [.cmd [0x81, 0x33]] := by
  have hc : contrastByte (clampFactor (1 / 5)) = 0x33 := by decide +kernel
  have hr : clampReports (1 / 5) = [] := by decide +kernel
  have hq : (s64.withContrast 0x33).Quiet := by decide +kernel
  have he : exec (.setContrast (1 / 5)) s64 = complete (emit (.cmd (encSetContrast 0x33)) (s64.withContrast 0x33)) := by
    show complete (emit (.cmd (encSetContrast (contrastByte (clampFactor (1 / 5)))))
      ((emitAll (clampReports (1 / 5)) s64).withContrast (contrastByte (clampFactor (1 / 5))))) = _
    rw [hr, hc, emitAll_nil]
  exact ⟨_, he, emit_storedContrast (.cmd (encSetContrast 0x33)) (s64.withContrast 0x33), framesOf_emitAll hq [.cmd (encSetContrast 0x33)]⟩

/-- V-K10, V-K11: DIM sends 0 or the stored contrast. -/
theorem test_dim : dimContrast true s32 = 0x00 ∧ dimContrast false s32 = 0x9F := by decide

/-- V-K13, V-K14. -/
theorem test_invert : invertFrame true = [0xA7] ∧ invertFrame false = [0xA6] := by decide

/-- V-R1, V-R3, V-R8, V-R10, V-R13: scrolls that fail, with no event. -/
theorem test_scroll_errors :
    resultOf (exec (.scrollHorizontal .left 3 2 1) s64) = some [⟨0, .error (.pageRange 2 1)⟩]
    ∧ nextWith (fun t => decide (t.out = [] ∧ t.ghostScroll = .inactive)) (exec (.scrollHorizontal .left 3 2 1) s64)
      = true
    ∧ resultOf (exec (.scrollHorizontal .right 0 0 8) s64) = some [⟨0, .error (.pageRange 0 8)⟩]
    ∧ resultOf (exec (.scrollDiagonal .right 0 0 7 128 0 64) s64) = some [⟨0, .error (.vOffset 128)⟩]
    ∧ resultOf (exec (.scrollDiagonal .left 0 0 1 96 0 16) s16) = some [⟨0, .error (.vOffset 96)⟩]
    ∧ resultOf (exec (.scrollDiagonal .right 0 5 1 200 0 64) s64) = some [⟨0, .error (.vOffset 200)⟩] := by
  decide +kernel

/-- The frames of a scroll start in a quiet state. -/
theorem frames_startScroll {s : State} (h : s.Quiet) (es : List Event) (m : ScrollMode) :
    framesOf (startScroll es m s).out = framesOf s.out
      ++ framesOf ((.cmd encScrollDeactivate :: syncFrames (packBuffer s)) ++ (es ++ [.cmd encScrollActivate])) := by
  rw [startScroll_quiet h]
  exact (framesOf_append _ _).trans (congrArg _ (framesOf_traceFrom _ _))

/-- V-R6's frames on 96 × 16: RIGHT, freq 0, the last page. -/
theorem test_scrollHorizontal : ∃ t, exec (.scrollHorizontal .right 0 0 1) s16 = .next t
    ∧ t.ghostScroll = .horizontal ∧ framesOf t.out = [.cmd [0x2E], .cmd [0x21, 0x00, 0x5F], .cmd [0x22, 0x00, 0x01],
      .data (List.replicate 192 0x00), .cmd [0x26, 0x00, 0x00, 0x00, 0x01, 0x00, 0xFF], .cmd [0x2F]] := by
  have h : framesOf s16.out ++ framesOf ((.cmd encScrollDeactivate :: syncFrames (packBuffer s16))
      ++ (horizontalSetup .right 0 0 1 ++ [.cmd encScrollActivate])) = [.cmd [0x2E], .cmd [0x21, 0x00, 0x5F],
      .cmd [0x22, 0x00, 0x01], .data (List.replicate 192 0x00), .cmd [0x26, 0x00, 0x00, 0x00, 0x01, 0x00, 0xFF],
      .cmd [0x2F]] := by decide +kernel
  exact ⟨_, rfl, rfl, (frames_startScroll (s := s16) (by decide) _ .horizontal).trans h⟩

/-- V-R11: the diagonal setup of voff = W − 1. -/
theorem test_scrollDiagonal : ∃ t, exec (.scrollDiagonal .left 2 0 1 95 0 16) s16 = .next t
    ∧ t.ghostScroll = .diagonal ∧ framesOf t.out = [.cmd [0x2E], .cmd [0x21, 0x00, 0x5F], .cmd [0x22, 0x00, 0x01],
      .data (List.replicate 192 0x00), .cmd [0xA3, 0x00, 0x10], .cmd [0x2A, 0x00, 0x00, 0x02, 0x01, 0x5F],
      .cmd [0x2F]] := by
  have h : framesOf s16.out ++ framesOf ((.cmd encScrollDeactivate :: syncFrames (packBuffer s16))
      ++ (diagonalSetup .left 2 (low8 0) (low8 1) (low8 95) (low8 0) (low8 16) ++ [.cmd encScrollActivate])) =
      [.cmd [0x2E], .cmd [0x21, 0x00, 0x5F], .cmd [0x22, 0x00, 0x01], .data (List.replicate 192 0x00),
        .cmd [0xA3, 0x00, 0x10], .cmd [0x2A, 0x00, 0x00, 0x02, 0x01, 0x5F], .cmd [0x2F]] := by decide +kernel
  have he : exec (.scrollDiagonal .left 2 0 1 95 0 16) s16 = complete (startScroll
      (diagonalSetup .left 2 (low8 0) (low8 1) (low8 95) (low8 0) (low8 16)) .diagonal s16) := by
    have hv : vOffsetOk s16.cfg.dims (95 : I32).toInt = true := by decide
    have hp : pageRangeOk s16.cfg.dims (0 : I32).toInt (1 : I32).toInt = true := by decide
    simp only [exec, execScrollDiagonal, hv, hp, Bool.true_or, if_true]
  exact ⟨_, he, rfl, (frames_startScroll (s := s16) (by decide) _ .diagonal).trans h⟩

/-- V-R17 to V-R20: the setup frames of a vertical scroll. -/
theorem test_scrollVertical_setup :
    verticalSetup .w128h64 .up 0 = [.cmd [0xA3, 0x00, 0x40], .cmd [0x2A, 0x00, 0x00, 0x00, 0x07, 0x01]]
    ∧ verticalSetup .w128h64 .down 0 = [.cmd [0xA3, 0x00, 0x40], .cmd [0x2A, 0x00, 0x00, 0x00, 0x07, 0x3F]]
    ∧ verticalSetup .w128h32 .down 7 = [.cmd [0xA3, 0x00, 0x20], .cmd [0x2A, 0x00, 0x00, 0x07, 0x03, 0x1F]]
    ∧ verticalSetup .w96h16 .up 4 = [.cmd [0xA3, 0x00, 0x10], .cmd [0x2A, 0x00, 0x00, 0x04, 0x01, 0x01]] := by decide

/-- V-R16: rows and fixed beyond a byte are cut to their low 8 bits. -/
theorem test_scrollDiagonal_low8 : (diagonalSetup .left 0 (low8 0) (low8 7) (low8 1) (low8 (-1)) (low8 300)).head?
    = some (.cmd [0xA3, 0xFF, 0x2C]) := by decide

/-- V-R22: STOP_SCROLL sends the same frames with no scroll active. -/
theorem test_stopScroll : ∃ t, exec .stopScroll s16 = .next t ∧ t.ghostScroll = .inactive ∧ framesOf t.out =
    [.cmd [0x2E], .cmd [0x21, 0x00, 0x5F], .cmd [0x22, 0x00, 0x01], .data (List.replicate 192 0x00)] := by
  have h : framesOf s16.out ++ framesOf (.cmd encScrollDeactivate :: syncFrames (packBuffer s16)) =
      [.cmd [0x2E], .cmd [0x21, 0x00, 0x5F], .cmd [0x22, 0x00, 0x01], .data (List.replicate 192 0x00)] := by
    decide +kernel
  refine ⟨_, rfl, rfl, ?_⟩
  have hq : s16.Quiet := by decide
  have : (scrollPrologue s16).out = ((packBuffer s16).emitted
    (.cmd encScrollDeactivate :: syncFrames (packBuffer s16))).out := congrArg _ (scrollPrologue_quiet hq)
  exact (congrArg framesOf this).trans (((framesOf_append _ _).trans (congrArg _ (framesOf_traceFrom _ _))).trans h)

/-- V-B3: BEGIN's events up to SyncBody on 96 × 16, INTERNAL, with a pin. -/
theorem test_begin_events : pinEvents s16.cfg ++ initFramesHead s16.cfg ++ initFramesTail s16.cfg =
    [.pin .low, .wait .tResetLow, .pin .high, .cmd [0xAE], .cmd [0xD5, 0x60], .cmd [0xA8, 0x0F], .cmd [0xD3, 0x00],
     .cmd [0x40], .cmd [0x8D, 0x14], .cmd [0x20, 0x00], .cmd [0xA1], .cmd [0xC8], .cmd [0xDA, 0x02]]
    ++ [.cmd [0x81, 0xCF], .cmd [0xD9, 0xF1], .cmd [0xDB, 0x40], .cmd [0xA4], .cmd [0xA6], .cmd [0xAF]] := by
  decide

/-- V-B2: the EXTERNAL values on 128 × 32, no pin. -/
theorem test_begin_external : pinEvents s32.cfg ++ initFramesHead s32.cfg ++ initFramesTail s32.cfg =
    [.cmd [0xAE], .cmd [0xD5, 0x80], .cmd [0xA8, 0x1F], .cmd [0xD3, 0x00], .cmd [0x40], .cmd [0x8D, 0x10],
     .cmd [0x20, 0x00], .cmd [0xA1], .cmd [0xC8], .cmd [0xDA, 0x02]]
    ++ [.cmd [0x81, 0x9F], .cmd [0xD9, 0x22], .cmd [0xDB, 0x40], .cmd [0xA4], .cmd [0xA6], .cmd [0xAF]] := by
  decide

/-- V-B5: BEGIN restores the initial contrast. -/
theorem test_begin_contrast : ∃ t, exec .begin (s64.withContrast 0x33) = .next t ∧ t.storedContrast = 0xCF
    ∧ t.ghostBegun = true := by
  refine ⟨_, rfl, ?_, rfl⟩
  simp only [State.addResult_storedContrast, State.withBegun_storedContrast, syncBody_storedContrast,
    clearBody_storedContrast, emitAll_storedContrast, State.withContrast_storedContrast, emitAll_cfg]
  decide

/-- V-H1's last state: STOP leaves the stored contrast and stops the scroll. -/
theorem test_stop : ∃ t, exec .stop ((s16.withContrast 0x80).withScroll .vertical) = .next t
    ∧ t.storedContrast = 0x80 ∧ t.ghostScroll = .inactive := by
  refine ⟨_, rfl, ?_, ?_⟩ <;> simp [stopScrollBody, invertBody, dimBody]

/-- R231: with another host's INVERT waiting, DISPLAY_OFF is still STOP's last frame. -/
theorem test_stop_last_command : ∃ t es n,
    exec .stop (s16.withInput [⟨1, false, false, .host, [.byte 0x09, .byte 0x01]⟩]) = .next t
    ∧ t.out = es ++ .cmd [0xAE] :: drawnReport n (.cmd [0xAE]) := ⟨_, _, _, rfl, rfl⟩

/-- V-F1 to V-F5. -/
theorem test_framing :
    wireOf .i2c (.cmd [0x81, 0xCF]) = some (.i2c [0x00, 0x81, 0xCF])
    ∧ wireOf .i2c (.data [1, 2, 3]) = some (.i2c [0x40, 1, 2, 3])
    ∧ wireOf .spi (.cmd [0x81, 0xCF]) = some (.spi .low [0x81, 0xCF])
    ∧ wireOf .spi (.data [1, 2, 3]) = some (.spi .high [1, 2, 3]) := by decide

/-- V-F6. -/
theorem test_tagged : taggedStream [.cmd [0xAE], .data [0xFF]] = [(.command, 0xAE), (.data, 0xFF)] := by decide

/-- R86: the expansion of `scrollDiagonal(h, v, freq)` on 128 × 64. -/
theorem test_pseudo : expand .w128h64 (.scrollDiagonalFreq .right .down 5)
    = .scrollDiagonal .right 5 0 7 63 0 64 := by decide

/-- R240, Q3: after an error the calls chained to it are dropped; another host's call, and from the next operation of its
own on everything, stays. -/
theorem test_chained_calls_dropped :
    nextWith (fun t => decide (t.input = [⟨1, true, true, .host, [.byte 1]⟩, ⟨0, true, false, .host, [.byte 2]⟩,
        ⟨0, true, true, .host, [.byte 3]⟩]))
      (exec (.scrollHorizontal .left 3 2 1) (s64.withInput
        [⟨0, true, true, .host, [.byte 3]⟩, ⟨1, true, true, .host, [.byte 1]⟩, ⟨0, true, false, .host, [.byte 2]⟩,
          ⟨0, true, true, .host, [.byte 3]⟩])) = true := by decide +kernel

/-- R82, R152: the command encoder answers `D5 80` and emits nothing. -/
theorem test_command_encodes :
    exec (.cmdSetDisplayClockDiv 0x80) s64 = .next (s64.withEncoded [0xD5, 0x80])
    ∧ (s64.withEncoded [0xD5, 0x80]).out = [] := ⟨rfl, rfl⟩

/-- R85: operands that no rule gives are not the block's: `20 01`, `41`, and `D5 80` on 96 × 16. -/
theorem test_given_frames :
    givenFrame s64.cfg [0xD5, 0x80] = true ∧ givenFrame s16.cfg [0xD5, 0x80] = false
    ∧ givenFrame s64.cfg [0x20, 0x01] = false ∧ givenFrame s64.cfg [0x41] = false
    ∧ givenFrame s64.cfg [0x26, 0x00, 0x00, 0x00, 0x07, 0x00, 0xFF] = true
    ∧ givenFrame s32.cfg [0x26, 0x00, 0x00, 0x00, 0x07, 0x00, 0xFF] = false := by decide

/-- R280: SET_PIXEL then SYNC loses the write; DRAW_IMAGE then SYNC loses none. -/
theorem test_hazard_pixelLost :
    nextWith (fun t => decide (Hazard.pixelLost ∈ hazards .sync t) && decide (Hazard.pixelLost ∈ hazards .stop t))
      (exec (.setPixel false 0 0) s16) = true
    ∧ nextWith (fun t => decide (Hazard.pixelLost ∉ hazards .sync t)) (exec (.drawImage .full white1 0 0 2 2) s16)
      = true := by decide +kernel

/-- R280, R248: a scroll start that errs performs no SyncBody and loses no write; its boundary page range loses it. -/
theorem test_hazard_scrollError :
    nextWith (fun t => decide (hazards (.scrollHorizontal .left 0 2 1) t = [])
        && decide (hazards (.scrollDiagonal .left 0 0 1 96 0 16) t = [])
        && decide (hazards (.scrollHorizontal .left 0 1 1) t = [.beforeInit, .pixelLost])
        && nextWith (fun u => decide (u.dbuf = t.dbuf)) (exec (.scrollHorizontal .left 0 2 1) t))
      (exec (.setPixel true 0 0) s16) = true := by decide +kernel

/-- R98, N9: a write of three bytes split into three, one of them empty; a part under another control byte is none. -/
theorem test_splitsInto :
    splitsInto (.i2c [0x40, 1, 2, 3]) [.i2c [0x40, 1], .i2c [0x40], .i2c [0x40, 2, 3]] = true
    ∧ splitsInto (.i2c [0x40, 1, 2, 3]) [.i2c [0x40, 1], .i2c [0x00, 2, 3]] = false := by decide

/-- R244: dims = 3 has no block; the bits of CFG (R23). -/
theorem test_cfg_bits : State.ofCfgBits 0x03 = .error .unsupportedDims
    ∧ State.ofCfgBits 0x1E = .ok (State.construct ⟨.w96h16, .external, .spi, true⟩) := ⟨rfl, rfl⟩

/-! ## The obligations' hypotheses are met

One theorem for each obligation with hypotheses: a concrete case that meets all of them, one for each clause. -/

/-- A block that is quiet although its own host has an INVERT waiting. -/
def busy16 : State := s16.withInput [req [.byte 0x09, .byte 0x01]]

/-- A host with the two operations before another host's. -/
def twoHosts (ws : List Slot) : State := { s16 with owner := some 0, input := [⟨1, false, false, .host, ws⟩] }

/-- An in-range rectangle of 96 × 16, all ON. -/
def lit16 : State := s16.withRaster ((List.range 8).map fun x => (x, true))

theorem witness_DecodeOfEncodeIsTheInstr :
    (Instr.drawImage .none white2 (BitVec.ofInt 32 (-2147483648)) 2147483647 (-1) 0).wellFormed = true
    ∧ (Instr.scrollDiagonal .right 7 (-1) 0 1 2 3).wellFormed = true
    ∧ (Instr.cmdSetStartLine 63).wellFormed = true := by decide

theorem witness_DecodedInstrIsWellFormed :
    decode .host [.byte 0x09, .byte 0x00] = .ok (.invert false)
    ∧ decode .encoder [.byte 0x7F] = .ok (.cmdSetStartLine 63) := by decide

/-- The boundary tags 0x00, 0x0F and 0xFF, the first reserved mode value of each kind, and a mode byte too many. -/
theorem witness_ReservedHostEncodingsAreRefused :
    (∀ tag ∈ [(0x00 : Byte), 0x0F, 0xFF], (holding s16 [.byte tag]).input = req [.byte tag] :: []
      ∧ (req [.byte tag]).port = .host ∧ (tag = 0x00 ∨ 0x0F ≤ tag.toNat)
      ∧ step (holding s16 [.byte tag]) = .refused (.badEncoding (.reservedTag tag)))
    ∧ (∀ p ∈ [((0x04 : Byte), (0x02 : Byte)), (0x08, 0x02), (0x05, 0x04), (0x06, 0x80), (0x0A, 0x10), (0x0C, 0xFF)],
      ((p.1 ∈ [(0x04 : Byte), 0x08, 0x09] ∧ 2 ≤ p.2.toNat) ∨ (p.1 ∈ [(0x05 : Byte), 0x06] ∧ 4 ≤ p.2.toNat)
        ∨ (p.1 ∈ [(0x0A : Byte), 0x0B, 0x0C] ∧ 16 ≤ p.2.toNat))
      ∧ step (holding s16 [.byte p.1, .byte p.2]) = .refused (.badEncoding (.reservedModeBits p.2)))
    ∧ step (holding s16 [.byte 0x01, .byte 0x00]) = .refused (.badEncoding .unexpectedOperand)
    ∧ step (holding s16 [.byte 0x07, .byte 0x00]) = .refused (.badEncoding .missingOperand) := by
  refine ⟨?_, ?_, rfl, rfl⟩
  · intro tag ht
    simp only [List.mem_cons, List.not_mem_nil, or_false] at ht
    rcases ht with rfl | rfl | rfl <;> exact ⟨rfl, rfl, by decide, rfl⟩
  · intro p hp
    simp only [List.mem_cons, List.not_mem_nil, or_false] at hp
    rcases hp with rfl | rfl | rfl | rfl | rfl | rfl <;> exact ⟨by decide, rfl⟩

theorem witness_OpcodeBelongsToOneCommand :
    (0x7F : Byte) &&& opcodeMask .setStartLine = opcode .setStartLine
    ∧ ∀ n : CommandName, (0xA5 : Byte) &&& opcodeMask n ≠ opcode n := by
  refine ⟨by decide, fun n => ?_⟩
  cases n <;> decide

theorem witness_CommandStreamSplitsIntoFrames :
    ∀ f ∈ [[(0xAE : Byte)], [0x81, 0xCF], [0x27, 0x00, 0x03, 0x05, 0x03, 0x00, 0xFF]],
      wellSizedFrame f = true := by decide

theorem witness_StepRunsTheDecodedInstr :
    (holding s16 [.byte 0x02]).input = req [.byte 0x02] :: [] ∧ decode .host [.byte 0x02] = .ok .clear
    ∧ unordered .clear (req [.byte 0x02]) (holding s16 [.byte 0x02]) = false := by decide

/-- V-K16. -/
theorem witness_FactorThatIsNoRationalIsRefused :
    (holding s16 [.byte 0x07, .factor .nan]).input = req [.byte 0x07, .factor .nan] :: []
    ∧ (req [.byte 0x07, .factor .nan]).port = .host
    ∧ step (holding s16 [.byte 0x07, .factor .nan]) = .refused (.badEncoding .factorNotFinite) := ⟨rfl, rfl, rfl⟩

theorem witness_UnorderedHostsAreRefused :
    (twoHosts [.byte 0x03]).owner = some 0 ∧ (0 : HostId) ≠ 1 ∧ decode .host [.byte 0x03] = .ok .sync
    ∧ step (twoHosts [.byte 0x03]) = .refused .unorderedHosts
    ∧ decode .host [.byte 0x09, .byte 0x01] = .ok (.invert true)
    ∧ ∃ t, step (twoHosts [.byte 0x09, .byte 0x01]) = .next t :=
  ⟨rfl, by decide, rfl, rfl, rfl, _, rfl⟩

theorem witness_ConstructionReadsTheCfgFields :
    (0x1F : BitVec 5).toNat % 4 = 3 ∧ (0x00 : BitVec 5).toNat % 4 ≠ 3 ∧ (0x1E : BitVec 5).toNat % 4 ≠ 3 := by decide

/-- A state that meets the invariant, is not the reset state, and steps. -/
theorem witness_StepKeepsTheInvariant :
    (holding lit16 [.byte 0x02]).Inv ∧ ∃ t, step (holding lit16 [.byte 0x02]) = .next t :=
  ⟨by decide, _, rfl⟩

theorem witness_StepOnlyExtendsTheTrace :
    ∃ t, step (holding (s16.addEvents [.cmd [0xAE]]) [.byte 0x03]) = .next t := ⟨_, rfl⟩

/-- An instruction of each kind the frame speaks of: one that sends nothing, one that packs, and one that errs. -/
theorem witness_FrameOfEveryInstr :
    (∃ t, exec .clear s16 = .next t) ∧ sendsFrames .clear = false ∧ writesContrast .clear = false
    ∧ performsSync .clear = false ∧ (∃ t, exec (.dim true) s16 = .next t) ∧ writesRaster (.dim true) = false
    ∧ isCommand (.dim true) = false
    ∧ ∃ t, exec (.setPixel true 96 0) s16 = .next t :=
  ⟨⟨_, rfl⟩, rfl, rfl, rfl, ⟨_, rfl⟩, rfl, rfl, _, rfl⟩

/-- A scroll start that fails a check: a next state, no SyncBody and no frame. -/
theorem witness_FrameOfEveryInstr_scroll :
    runsSync (.scrollHorizontal .left 0 2 1) s16 = false ∧ runsFrames (.scrollHorizontal .left 0 2 1) s16 = false
    ∧ ∃ t, exec (.scrollHorizontal .left 0 2 1) s16 = .next t := ⟨rfl, rfl, _, rfl⟩

theorem witness_ScrollModeFollowsTheTable :
    (∃ t e, exec (.scrollHorizontal .left 3 2 1) s16 = .next t
      ∧ t.results = s16.results ++ [⟨s16.host, .error e⟩])
    ∧ ∃ t, exec .clear s16 = .next t ∧ ¬ ∃ e, t.results = s16.results ++ [⟨s16.host, .error e⟩] := by
  refine ⟨⟨_, _, rfl, rfl⟩, _, rfl, ?_⟩
  rintro ⟨e, h⟩
  cases h

/-- The input clause: another host's request and a chained one before an operation of the host's own, or before the
end. -/
theorem witness_ErrorChangesNothing :
    (∃ t, exec (.setPixel true (-1) 0) lit16 = .next t
      ∧ t.results = lit16.results ++ [⟨lit16.host, .error (.pixelRange (-1) 0)⟩])
    ∧ (∀ r ∈ [Request.mk 1 true false .host [.byte 2], ⟨0, true, true, .host, [.byte 3]⟩],
        r.host = lit16.host → r.chained = true)
    ∧ (∃ r rest, [req [.byte 2]] = r :: rest ∧ r.host = lit16.host ∧ r.chained = false) :=
  ⟨⟨_, rfl, rfl⟩, by decide, _, _, rfl, rfl, rfl⟩

theorem witness_ErrorRepeatsOnTheSameArguments :
    lit16.cfg = s16.cfg ∧ ∃ t, exec (.scrollDiagonal .left 0 0 1 96 0 16) s16 = .next t
      ∧ t.results = s16.results ++ [⟨s16.host, .error (.vOffset 96)⟩] := ⟨rfl, _, rfl, rfl⟩

theorem witness_PictureDoesNotDependOnTheDraws : ∃ t, exec .sync lit16 = .next t := ⟨_, rfl⟩

theorem witness_PixelMapIsABijection :
    95 < width .w96h16 ∧ 15 < height .w96h16 ∧ 191 < bufferSize .w96h16 ∧ 7 < 8 := by decide

/-- The corner (W − 1, H − 1), and the first values out of range on every side. -/
theorem witness_SetPixelWritesOneBit :
    lit16.Inv
    ∧ (0 ≤ (95 : I32).toInt ∧ (95 : I32).toInt < (Sys2Proof.Expected.geometry lit16.cfg.dims).1
      ∧ 0 ≤ (15 : I32).toInt ∧ (15 : I32).toInt < (Sys2Proof.Expected.geometry lit16.cfg.dims).2.1)
    ∧ ¬(0 ≤ (-1 : I32).toInt) ∧ ¬((96 : I32).toInt < (Sys2Proof.Expected.geometry lit16.cfg.dims).1)
    ∧ ¬((16 : I32).toInt < (Sys2Proof.Expected.geometry lit16.cfg.dims).2.1) := by decide

theorem witness_SetPixelReadsBack :
    lit16.Inv ∧ 0 ≤ (95 : I32).toInt ∧ (95 : I32).toInt < width lit16.cfg.dims ∧ 0 ≤ (15 : I32).toInt
    ∧ (15 : I32).toInt < height lit16.cfg.dims := by decide

theorem witness_SetPixelIsIdempotent :
    s64.Inv ∧ 0 ≤ (127 : I32).toInt ∧ (127 : I32).toInt < width s64.cfg.dims ∧ 0 ≤ (63 : I32).toInt
    ∧ (63 : I32).toInt < height s64.cfg.dims := by decide

theorem witness_SetPixelIsLostAtSync :
    s32.Inv ∧ 0 ≤ (0 : I32).toInt ∧ (0 : I32).toInt < width s32.cfg.dims ∧ 0 ≤ (31 : I32).toInt
    ∧ (31 : I32).toInt < height s32.cfg.dims := by decide

/-- A waiting write that STOP loses, and one that a failing scroll start leaves. -/
theorem witness_SetPixelIsLostAtSync_hazard :
    (s16.withPixelPending true).pixelPending = true ∧ Hazard.pixelLost ∈ hazards .stop (s16.withPixelPending true)
    ∧ Hazard.pixelLost ∉ hazards (.scrollHorizontal .left 0 2 1) (s16.withPixelPending true)
    ∧ (∃ t, exec .stop (s16.withPixelPending true) = .next t)
    ∧ ∃ t, exec (.scrollHorizontal .left 0 2 1) (s16.withPixelPending true) = .next t :=
  ⟨rfl, by decide, by decide, ⟨_, rfl⟩, _, rfl⟩

theorem witness_ClearTurnsEveryPixelOff :
    95 < (Sys2Proof.Expected.geometry lit16.cfg.dims).1 ∧ 15 < (Sys2Proof.Expected.geometry lit16.cfg.dims).2.1
    ∧ lit16.pixel 7 0 = true := by decide

theorem witness_SyncPacksTheRaster :
    95 < width corner16.cfg.dims ∧ 15 < height corner16.cfg.dims ∧ bufferSize corner16.cfg.dims ≤ 192 := by decide

/-- Quiet states: nothing waits; the block's own host waits; an ordered operation of another host waits. -/
theorem witness_Quiet :
    s64.Quiet ∧ busy16.Quiet
    ∧ (s32.withInput [⟨1, true, false, .host, [.byte 0x09, .byte 0x01]⟩]).Quiet
    ∧ ¬ (s32.withInput [⟨1, false, false, .host, [.byte 0x09, .byte 0x01]⟩]).Quiet := by decide

/-- The smallest and the largest rectangle that completes, and the first that is too wide. -/
theorem witness_DrawImageCompositesTheClippedRect :
    ((-1 : I32).toInt < (0 : I32).toInt ∧ (0 : I32).toInt - (-1 : I32).toInt ≤ 2147483647)
    ∧ ((0 : I32).toInt < (2147483647 : I32).toInt ∧ (2147483647 : I32).toInt - (0 : I32).toInt ≤ 2147483647) := by
  decide

theorem witness_DrawImageChecksTheRectFirst :
    ((5 : I32).toInt ≤ (5 : I32).toInt)
    ∧ ((-1 : I32).toInt < (2147483647 : I32).toInt ∧ (0 : I32).toInt < (10 : I32).toInt ∧ Overlay.full ≠ .none
      ∧ 2147483647 < (2147483647 : I32).toInt - (-1 : I32).toInt) := by decide

theorem witness_UniformImageResamplesToItself :
    white2.wellFormed = true ∧ ∀ q ∈ white2.pixels, q = ⟨255, 255, 255⟩ := by decide

theorem witness_UniformSourcesObeyTheOverlay :
    (black1.wellFormed = true ∧ (∀ q ∈ black1.pixels, q = ⟨0, 0, 0⟩) ∧ classify ⟨0, 0, 0⟩ = false)
    ∧ (white1.wellFormed = true ∧ (∀ q ∈ white1.pixels, q = ⟨255, 255, 255⟩) ∧ classify ⟨255, 255, 255⟩ = true)
    ∧ (0 : I32).toInt < (8 : I32).toInt ∧ (8 : I32).toInt - (0 : I32).toInt ≤ 2147483647 := by decide

theorem witness_OverlayIsMonotone :
    (∃ t, exec (.drawImage .onPixels black1 0 0 8 8) lit16 = .next t) ∧ lit16.pixel 7 0 = true
    ∧ (∃ t, exec (.drawImage .offPixels white1 0 0 8 8) lit16 = .next t) ∧ lit16.pixel 8 0 = false
    ∧ 8 < width lit16.cfg.dims ∧ 0 < height lit16.cfg.dims :=
  ⟨⟨_, rfl⟩, by decide, ⟨_, rfl⟩, by decide, by decide, by decide⟩

/-- Two rectangles that touch along x = 8. -/
theorem witness_DisjointDrawsCommute :
    s16.Inv ∧ (∀ x y : Nat, x < width s16.cfg.dims → y < height s16.cfg.dims →
      ¬(((0 : I32).toInt ≤ x ∧ x < (8 : I32).toInt ∧ (0 : I32).toInt ≤ y ∧ y < (8 : I32).toInt)
        ∧ ((8 : I32).toInt ≤ x ∧ x < (16 : I32).toInt ∧ (0 : I32).toInt ≤ y ∧ y < (8 : I32).toInt)))
    ∧ (∃ ta tab, exec (.drawImage .full white1 0 0 8 8) s16 = .next ta
      ∧ exec (.drawImage .offPixels black1 8 0 16 8) ta = .next tab)
    ∧ ∃ tb tba, exec (.drawImage .offPixels black1 8 0 16 8) s16 = .next tb
      ∧ exec (.drawImage .full white1 0 0 8 8) tb = .next tba := by
  refine ⟨by decide, ?_, ⟨_, _, rfl, rfl⟩, ⟨_, _, rfl, rfl⟩⟩
  intro x y _ _ h
  have h1 : (x : Int) < 8 := h.1.2.1
  have h2 : (8 : Int) ≤ x := h.2.1
  omega

/-- One rasterised text for each clause, at the boundary of its range: an end of 2^31, an empty width and an empty height,
NONE on a side of 2^31, a side of 2^31 − 1 and of 2^31, and one that is composited with its end at 2^31 − 1. -/
theorem witness_DrawTextCompositesTheRasterisedText :
    (2147483647 < (2147483647 : I32).toInt + ((1 : Nat) : Int))
    ∧ resultOf (drawRasterised .full ⟨white1, 0, 1⟩ 3 4 s16) = some [⟨0, .error (.rect 3 4 3 5)⟩]
    ∧ resultOf (drawRasterised .full ⟨white1, 1, 0⟩ 3 4 s16) = some [⟨0, .error (.rect 3 4 4 4)⟩]
    ∧ resultOf (drawRasterised .none ⟨white1, 2147483648, 1⟩ (-1) 0 s16) = some [⟨0, .ok⟩]
    ∧ drawRasterised .full ⟨white1, 2147483648, 1⟩ (-1) 0 s16 = .refused .rectTooLarge
    ∧ (∃ t, drawRasterised .full ⟨white1, 2147483647, 1⟩ 0 0 s16 = .next t)
    ∧ ∃ t, drawRasterised .full ⟨white2, 2, 1⟩ 2147483645 0 s16 = .next t :=
  ⟨by decide, rfl, rfl, rfl, rfl, ⟨_, rfl⟩, _, rfl⟩

theorem witness_InitTraceDependsOnDimsAndVccOnly :
    s16.Quiet ∧ busy16.Quiet ∧ busy16.cfg.dims = s16.cfg.dims ∧ busy16.cfg.vcc = s16.cfg.vcc
    ∧ (State.construct ⟨.w96h16, .internal, .spi, false⟩).Quiet
    ∧ (∃ t, exec .begin s16 = .next t)
    ∧ ∃ t, exec .begin (State.construct ⟨.w96h16, .internal, .spi, false⟩) = .next t :=
  ⟨by decide, by decide, rfl, rfl, by decide, ⟨_, rfl⟩, _, rfl⟩

/-- The page ranges 0..P−1 and P−1..P−1 pass; 0..P and the crossed range 1..0 do not. -/
theorem witness_ScrollHorizontalStartsOrFails :
    s16.Quiet
    ∧ (0 ≤ (0 : I32).toInt ∧ (0 : I32).toInt ≤ (1 : I32).toInt
      ∧ (1 : I32).toInt < (Sys2Proof.Expected.geometry s16.cfg.dims).2.2)
    ∧ ¬((2 : I32).toInt < (Sys2Proof.Expected.geometry s16.cfg.dims).2.2)
    ∧ ¬((1 : I32).toInt ≤ (0 : I32).toInt) := by decide

/-- voff = W − 1 passes with any page range that is in order; voff = W and −1 do not. -/
theorem witness_ScrollDiagonalStartsOrFails :
    s16.Quiet
    ∧ ¬((95 : I32).toInt < 0 ∨ (Sys2Proof.Expected.geometry s16.cfg.dims).1 ≤ (95 : I32).toInt)
    ∧ (0 ≤ (0 : I32).toInt ∧ (0 : I32).toInt ≤ (1 : I32).toInt
      ∧ (1 : I32).toInt < (Sys2Proof.Expected.geometry s16.cfg.dims).2.2)
    ∧ (Sys2Proof.Expected.geometry s16.cfg.dims).1 ≤ (96 : I32).toInt ∧ (-1 : I32).toInt < 0 := by decide

/-- A quiet state, and one in which another host's INVERT waits. -/
theorem witness_FailedFrameIsReportedAtOnce :
    busy16.Quiet ∧ ¬ (s16.withInput [⟨1, false, false, .host, [.byte 0x09, .byte 0x01]⟩]).Quiet := by decide

/-- An operation that sends, and completes with Ok. -/
theorem witness_FramesOfOneOperationKeepTheirOrder :
    ∃ t, exec (.dim true) s16 = .next t ∧ ¬ ∃ e, t.results = s16.results ++ [⟨s16.host, .error e⟩] := by
  refine ⟨_, rfl, ?_⟩
  rintro ⟨e, h⟩
  cases h

theorem witness_TaggedStreamIsTheSameOnBothBuses :
    List.Forall₂ (fun w ps => splitsInto w ps = true) ([Event.cmd [0x81, 0xCF], .data [1, 2]].filterMap (wireOf .i2c))
      [[.i2c [0x00, 0x81], .i2c [0x00, 0xCF]], [.i2c [0x40, 1, 2]]] :=
  .cons (by decide) (.cons (by decide) .nil)

/-! The statements whose one hypothesis is that no other host's frame waits: a block at construction and one that has
drawn, each with a request of its own host waiting, meet it. -/

theorem witness_SyncSendsTheWholeBuffer : (holding s16 [.byte 0x02]).Quiet ∧ (holding lit16 [.byte 0x03]).Quiet := by decide

theorem witness_BeginSendsTheInitSequence : (holding s16 [.byte 0x02]).Quiet ∧ (holding lit16 [.byte 0x03]).Quiet := by decide

theorem witness_SetContrastClampsRoundsAndSends : (holding s16 [.byte 0x02]).Quiet ∧ (holding lit16 [.byte 0x03]).Quiet := by decide

theorem witness_DimAndInvertSendOneFrame : (holding s16 [.byte 0x02]).Quiet ∧ (holding lit16 [.byte 0x03]).Quiet := by decide

theorem witness_DimRoundTripRestoresTheContrast : (holding s16 [.byte 0x02]).Quiet ∧ (holding lit16 [.byte 0x03]).Quiet := by decide

theorem witness_ScrollVerticalScrollsTheWholeDisplay : (holding s16 [.byte 0x02]).Quiet ∧ (holding lit16 [.byte 0x03]).Quiet := by decide

theorem witness_StopScrollDeactivatesAndSyncs : (holding s16 [.byte 0x02]).Quiet ∧ (holding lit16 [.byte 0x03]).Quiet := by decide

theorem witness_StopShutsDownInOrder : (holding s16 [.byte 0x02]).Quiet ∧ (holding lit16 [.byte 0x03]).Quiet := by decide

end Sys2Proof.Machine.Tests
end

section
/-! Proofs about the image operands and the resampler (spec/00_scope.md R12). -/

namespace Sys2Proof

theorem Image.wellFormed_iff (img : Image) :
    img.wellFormed = true ↔
      1 ≤ img.width ∧ 1 ≤ img.height ∧ img.pixels.length = img.width * img.height := by
  simp [Image.wellFormed, and_assoc]

/-- R72: an image of width and height at least 1 has a pixel, so P-UNIFORM speaks of some value. -/
theorem Image.pixels_ne_nil_of_wellFormed {img : Image} (h : img.wellFormed = true) : img.pixels ≠ [] := by
  obtain ⟨hwidth, hheight, hlength⟩ := img.wellFormed_iff.mp h
  have hpos : 0 < img.pixels.length := hlength ▸ Nat.mul_pos hwidth hheight
  exact List.ne_nil_of_length_pos hpos

namespace Machine

theorem uniformValue_eq_some_iff {img : Image} {p : Rgb} :
    uniformValue img = some p ↔ img.pixels ≠ [] ∧ ∀ q ∈ img.pixels, q = p := by
  unfold uniformValue
  cases img.pixels with
  | nil => simp
  | cons first rest =>
    simp only [List.all_eq_true, decide_eq_true_eq, Option.ite_none_right_eq_some, Option.some.injEq,
      ne_eq, List.cons_ne_nil, not_false_eq_true, true_and, List.forall_mem_cons]
    constructor
    · rintro ⟨hrest, rfl⟩
      exact ⟨rfl, hrest⟩
    · rintro ⟨rfl, hrest⟩
      exact ⟨hrest, rfl⟩

theorem resampleAt_of_uniformValue {img : Image} {p : Rgb} (h : uniformValue img = some p) (tw th x y : Nat) :
    resampleAt img tw th x y = p := by
  simp [resampleAt, h]

/-- Settles O35: a well-formed image has a first pixel, every other pixel equals it, and `resampleAt` answers that
value at every size and position. -/
theorem uniformImageResamplesToItself : Obligations.UniformImageResamplesToItself := by
  intro img p hwf huniform
  exact resampleAt_of_uniformValue
    (uniformValue_eq_some_iff.mpr ⟨Image.pixels_ne_nil_of_wellFormed hwf, huniform⟩)

end Machine
end Sys2Proof
end

section
/-! One form for the meaning of every instruction (spec/10_state.md R21, R248; spec/42_command_encoder.md R82): the
checks of a host operation, which read the operands and the display's size alone, and what it does once they pass. -/

namespace Sys2Proof.Machine

/-! ## The checks of an operation -/

/-- What the checks of an operation decide. -/
inductive Verdict where
  | pass
  | error (e : OpError)
  | refuse (r : Refusal)

/-- The answer that a verdict gives from `s`, `t` being the state after the operation's effect. -/
def Verdict.answer (s t : State) : Verdict → Answer
  | .pass => complete t
  | .error e => raiseError e s
  | .refuse r => .refused r

/-- The rectangle first, then NONE, then the size (R132, R133, R135). -/
def rectVerdict (ov : Overlay) (x0 y0 x1 y1 : Int) : Verdict :=
  if rectWellFormed x0 y0 x1 y1 then
    if ov = .none then .pass else if rectOversized x0 y0 x1 y1 then .refuse .rectTooLarge else .pass
  else .error (.rect x0 y0 x1 y1)

/-- The checks of DRAW_TEXT on a rasterised text (R140). -/
def textVerdict (ov : Overlay) (r : Rasterised) (x0 y0 : Int) : Verdict :=
  if textOversized r x0 y0 then .refuse .textEndTooLarge
  else rectVerdict ov x0 y0 (textEnd r x0 y0).1 (textEnd r x0 y0).2

/-- SET_PIXEL's check (R113). -/
def pixelVerdict (d : Dims) (x y : Int) : Verdict :=
  if pixelInRange d x y then .pass else .error (.pixelRange x y)

/-- SCROLL_HORIZONTAL's check (R202). -/
def pageVerdict (d : Dims) (sp ep : Int) : Verdict :=
  if pageRangeOk d sp ep then .pass else .error (.pageRange sp ep)

/-- The checks of SCROLL_DIAGONAL, voff first (R203, R204). -/
def diagonalVerdict (d : Dims) (sp ep voff : Int) : Verdict :=
  if vOffsetOk d voff then
    if pageRangeOk d sp ep || !Config.diagChecksPageRange then .pass else .error (.pageRange sp ep)
  else .error (.vOffset voff)

/-- The checks of a host operation on a display of dims `d`. -/
def opVerdict (d : Dims) : Instr → Verdict
  | .setPixel _ x y => pixelVerdict d x.toInt y.toInt
  | .drawImage ov _ x0 y0 x1 y1 => rectVerdict ov x0.toInt y0.toInt x1.toInt y1.toInt
  | .drawText ov text font x0 y0 => textVerdict ov (rasterize font text) x0.toInt y0.toInt
  | .scrollHorizontal _ _ sp ep => pageVerdict d sp.toInt ep.toInt
  | .scrollDiagonal _ _ sp ep voff _ _ => diagonalVerdict d sp.toInt ep.toInt voff.toInt
  | _ => .pass

/-! ## The effect of an operation -/

/-- BEGIN up to its last init frame (R177, R178). -/
def initSequence (s : State) : State :=
  emitAll (initFramesTail s.cfg)
    ((emitAll (initFramesHead s.cfg) (emitAll (pinEvents s.cfg) s)).withContrast (initContrast s.cfg.vcc))

/-- BEGIN's effect (R177). -/
def beginBody (s : State) : State := (syncBody (clearBody (initSequence s))).withBegun true

/-- SET_PIXEL's effect at a pixel of the display (R113). -/
def setPixelBody (on : Bool) (x y : Nat) (s : State) : State :=
  (s.withBuffer (Memory.write 0 s.dbuf (byteIndex s.cfg.dims x y)
    (setBit (s.bufferByte (byteIndex s.cfg.dims x y)) (bitIndex y) on))).withPixelPending true

/-- The effect of a rectangle that passes its checks: NONE leaves the raster (R135). -/
def rectBody (ov : Overlay) (img : Image) (x0 y0 x1 y1 : Int) (s : State) : State :=
  if ov = .none then s else compositeBody ov img x0 y0 x1 y1 s

/-- SET_CONTRAST's effect (R220). -/
def setContrastBody (factor : Rat) (s : State) : State :=
  emit (.cmd (encSetContrast (contrastByte (clampFactor factor))))
    ((emitAll (clampReports factor) s).withContrast (contrastByte (clampFactor factor)))

/-- STOP's effect (R230). -/
def stopBody (s : State) : State :=
  emit (.cmd encDisplayOff) (syncBody (clearBody (dimBody false (invertBody false (stopScrollBody s)))))

/-- What a host operation does once its checks have passed, before its result is noted. -/
def opBody : Instr → State → State
  | .begin, s => beginBody s
  | .clear, s => clearBody s
  | .sync, s => syncBody s
  | .setPixel on x y, s => setPixelBody on x.toNat y.toNat s
  | .drawImage ov img x0 y0 x1 y1, s => rectBody ov img x0.toInt y0.toInt x1.toInt y1.toInt s
  | .drawText ov text font x0 y0, s =>
    rectBody ov (rasterize font text).img x0.toInt y0.toInt (textEnd (rasterize font text) x0.toInt y0.toInt).1
      (textEnd (rasterize font text) x0.toInt y0.toInt).2 s
  | .setContrast factor, s => setContrastBody factor s
  | .dim on, s => dimBody on s
  | .invert on, s => invertBody on s
  | .scrollHorizontal hdir freq sp ep, s => startScroll (horizontalSetup hdir freq sp ep) .horizontal s
  | .scrollVertical vdir freq, s => startScroll (verticalSetup s.cfg.dims vdir freq) .vertical s
  | .scrollDiagonal hdir freq sp ep voff fixed rows, s =>
    startScroll (diagonalSetup hdir freq (low8 sp) (low8 ep) (low8 voff) (low8 fixed) (low8 rows)) .diagonal s
  | .stopScroll, s => stopScrollBody s
  | .stop, s => stopBody s
  | _, s => s

/-! ## What an instruction answers -/

theorem drawRect_eq_answer (ov : Overlay) (img : Image) (x0 y0 x1 y1 : Int) (s : State) :
    drawRect ov img x0 y0 x1 y1 s = (rectVerdict ov x0 y0 x1 y1).answer s (rectBody ov img x0 y0 x1 y1 s) := by
  unfold rectVerdict rectBody
  rcases drawRect_cases ov img x0 y0 x1 y1 s with
    ⟨hr, h⟩ | ⟨hr, ⟨hn, h⟩ | ⟨hn, ho, h⟩ | ⟨hn, ho, h⟩⟩ <;> rw [h] <;> simp [Verdict.answer, *]

theorem drawRasterised_eq_answer (ov : Overlay) (r : Rasterised) (x0 y0 : I32) (s : State) :
    drawRasterised ov r x0 y0 s = (textVerdict ov r x0.toInt y0.toInt).answer s
      (rectBody ov r.img x0.toInt y0.toInt (textEnd r x0.toInt y0.toInt).1 (textEnd r x0.toInt y0.toInt).2 s) := by
  unfold drawRasterised textVerdict
  split
  · rfl
  · exact drawRect_eq_answer ..

theorem execSetPixel_eq_answer (on : Bool) (x y : I32) (s : State) :
    execSetPixel on x y s =
      (pixelVerdict s.cfg.dims x.toInt y.toInt).answer s (setPixelBody on x.toNat y.toNat s) := by
  cases h : pixelInRange s.cfg.dims x.toInt y.toInt
  · simp [execSetPixel_outOfRange h, pixelVerdict, h, Verdict.answer]
  · simp [execSetPixel_inRange h, pixelVerdict, h, Verdict.answer, setPixelBody]

theorem execScrollHorizontal_eq_answer (hdir : HDir) (freq : Freq) (sp ep : I32) (s : State) :
    execScrollHorizontal hdir freq sp ep s = (pageVerdict s.cfg.dims sp.toInt ep.toInt).answer s
      (opBody (.scrollHorizontal hdir freq sp ep) s) := by
  unfold execScrollHorizontal pageVerdict
  split <;> rfl

theorem execScrollDiagonal_eq_answer (hdir : HDir) (freq : Freq) (sp ep voff fixed rows : I32) (s : State) :
    execScrollDiagonal hdir freq sp ep voff fixed rows s =
      (diagonalVerdict s.cfg.dims sp.toInt ep.toInt voff.toInt).answer s
        (opBody (.scrollDiagonal hdir freq sp ep voff fixed rows) s) := by
  unfold execScrollDiagonal diagonalVerdict
  split
  · split <;> rfl
  · rfl

theorem execBegin_eq_complete (s : State) : execBegin s = complete (beginBody s) := by
  simp [execBegin, beginBody, initSequence]

/-- A host operation answers what its checks decide, with its effect if they pass (R240, R248). -/
theorem exec_of_host {i : Instr} (h : isCommand i = false) (s : State) :
    exec i s = (opVerdict s.cfg.dims i).answer s (opBody i s) := by
  cases i with
  | setPixel on x y => exact execSetPixel_eq_answer on x y s
  | drawImage ov img x0 y0 x1 y1 => exact drawRect_eq_answer ..
  | drawText ov text font x0 y0 => exact drawRasterised_eq_answer ..
  | scrollHorizontal hdir freq sp ep => exact execScrollHorizontal_eq_answer ..
  | scrollDiagonal hdir freq sp ep voff fixed rows => exact execScrollDiagonal_eq_answer ..
  | begin => exact execBegin_eq_complete s
  | clear | sync | setContrast | dim | invert | scrollVertical | stopScroll | stop => rfl
  | _ => cases h

/-- A command leaves a byte list with the encoder and does nothing else (R82). -/
theorem exec_of_command {i : Instr} (h : isCommand i = true) (s : State) : ∃ bs, exec i s = runCommand bs s := by
  cases i with
  | begin | clear | sync | setPixel | drawImage | drawText | setContrast | dim | invert | scrollHorizontal
  | scrollVertical | scrollDiagonal | stopScroll | stop => cases h
  | _ => exact ⟨_, rfl⟩

/-- All that an instruction with a next state can have done: a command left its bytes; an operation failed a check and
left its error; or its checks passed, and it left its effect and `Ok`. -/
theorem exec_next_cases {i : Instr} {s t : State} (h : exec i s = .next t) :
    (isCommand i = true ∧ ∃ bs, t = s.withEncoded bs)
    ∨ (isCommand i = false ∧ ∃ e, opVerdict s.cfg.dims i = .error e
        ∧ t = (s.withInput (dropChained s.host s.input)).addResult s.host (.error e))
    ∨ (isCommand i = false ∧ opVerdict s.cfg.dims i = .pass
        ∧ t = (opBody i s).addResult (opBody i s).host .ok) := by
  cases hi : isCommand i
  case true =>
    obtain ⟨bs, he⟩ := exec_of_command hi s
    exact .inl ⟨rfl, bs, runCommand_next (he ▸ h)⟩
  case false =>
    rw [exec_of_host hi] at h
    cases hv : opVerdict s.cfg.dims i with
      rw [hv] at h
    | pass => exact .inr (.inr ⟨rfl, rfl, complete_next h⟩)
    | error e => exact .inr (.inl ⟨rfl, e, rfl, raiseError_next h⟩)
    | refuse r => cases h

/-- All that a step with a next state can have done: with nothing handed over it waited; otherwise it accepted the
request at the head of the input and ran it (R21). -/
theorem step_next_cases {s t : State} (h : step s = .next t) :
    (s.input = [] ∧ t = s)
    ∨ ∃ r rest i, s.input = r :: rest ∧ r.instr = .ok i ∧ unordered i r s = false
        ∧ exec i (accept i r rest s) = .next t := by
  unfold step at h
  split at h
  case h_1 hin => exact .inl ⟨hin, (Host.Outcome.next.inj h).symm⟩
  case h_2 r rest hin =>
    split at h
    case h_1 => cases h
    case h_2 i hi =>
      split at h
      · cases h
      · exact .inr ⟨r, rest, i, hin, hi, Bool.not_eq_true _ ▸ ‹_›, h⟩

end Sys2Proof.Machine
end

section
/-! What every host operation keeps, whatever it does: it only adds events and results, and it writes neither CFG nor
the noted hosts nor the encoder's answer (spec/10_state.md R23, R33, R40). -/

namespace Sys2Proof.Machine

/-- `t` comes after `s` in the run of one host operation. The lemmas of this namespace are named for the function whose
result extends its argument. -/
structure OnlyExtends (s t : State) : Prop where
  out     : s.out <+: t.out
  results : s.results <+: t.results
  cfg     : t.cfg = s.cfg
  host    : t.host = s.host
  owner   : t.owner = s.owner
  encoded : t.encoded = s.encoded

namespace OnlyExtends

/-- An update of the picture or of the ghost state. -/
theorem of_eq {s t : State} (hout : t.out = s.out) (hresults : t.results = s.results) (hcfg : t.cfg = s.cfg)
    (hhost : t.host = s.host) (howner : t.owner = s.owner) (hencoded : t.encoded = s.encoded) : OnlyExtends s t :=
  ⟨hout ▸ List.prefix_refl _, hresults ▸ List.prefix_refl _, hcfg, hhost, howner, hencoded⟩

theorem refl (s : State) : OnlyExtends s s := of_eq rfl rfl rfl rfl rfl rfl

theorem trans {s t u : State} (h : OnlyExtends s t) (h' : OnlyExtends t u) : OnlyExtends s u :=
  ⟨h.out.trans h'.out, h.results.trans h'.results, h'.cfg.trans h.cfg, h'.host.trans h.host,
    h'.owner.trans h.owner, h'.encoded.trans h.encoded⟩

theorem clearBody (s : State) : OnlyExtends s (clearBody s) := of_eq rfl rfl rfl rfl rfl rfl

theorem withContrast (s : State) (c : Byte) : OnlyExtends s (s.withContrast c) := of_eq rfl rfl rfl rfl rfl rfl

theorem withScroll (s : State) (m : ScrollMode) : OnlyExtends s (s.withScroll m) := of_eq rfl rfl rfl rfl rfl rfl

theorem withBegun (s : State) (b : Bool) : OnlyExtends s (s.withBegun b) := of_eq rfl rfl rfl rfl rfl rfl

theorem addResult (s : State) (h : HostId) (r : OpResult) : OnlyExtends s (s.addResult h r) :=
  ⟨List.prefix_refl _, List.prefix_append _ _, rfl, rfl, rfl, rfl⟩

theorem emitAll (es : List Event) (s : State) : OnlyExtends s (emitAll es s) :=
  ⟨emitAll_out_grows es s, emitAll_results_grow es s, by simp, by simp, by simp, by simp⟩

theorem emit (e : Event) (s : State) : OnlyExtends s (emit e s) := emitAll [e] s

theorem syncBody (s : State) : OnlyExtends s (syncBody s) :=
  ⟨syncBody_out_grows s, syncBody_results_grow s, by simp, by simp, by simp, by simp⟩

theorem initSequence (s : State) : OnlyExtends s (initSequence s) :=
  (((emitAll _ s).trans (emitAll _ _)).trans (withContrast _ _)).trans (emitAll _ _)

theorem beginBody (s : State) : OnlyExtends s (beginBody s) :=
  (((initSequence s).trans (clearBody _)).trans (syncBody _)).trans (withBegun _ _)

theorem rectBody (ov : Overlay) (img : Image) (x0 y0 x1 y1 : Int) (s : State) :
    OnlyExtends s (rectBody ov img x0 y0 x1 y1 s) := by
  unfold Machine.rectBody
  split
  · exact refl s
  · exact of_eq rfl rfl rfl rfl rfl rfl

theorem setContrastBody (factor : Rat) (s : State) : OnlyExtends s (setContrastBody factor s) :=
  ((emitAll _ s).trans (withContrast _ _)).trans (emit _ _)

theorem scrollPrologue (s : State) : OnlyExtends s (scrollPrologue s) := (emit _ s).trans (syncBody _)

theorem startScroll (setup : List Event) (m : ScrollMode) (s : State) : OnlyExtends s (startScroll setup m s) :=
  ((scrollPrologue s).trans (emitAll _ _)).trans (withScroll _ m)

theorem stopScrollBody (s : State) : OnlyExtends s (stopScrollBody s) := (scrollPrologue s).trans (withScroll _ _)

theorem stopBody (s : State) : OnlyExtends s (stopBody s) :=
  (((((stopScrollBody s).trans (emit _ _)).trans (emit _ _)).trans (clearBody _)).trans (syncBody _)).trans (emit _ _)

theorem opBody (i : Instr) (s : State) : OnlyExtends s (opBody i s) := by
  cases i with
  | begin => exact beginBody s
  | clear => exact clearBody s
  | sync => exact syncBody s
  | setPixel => exact of_eq rfl rfl rfl rfl rfl rfl
  | drawImage | drawText => exact rectBody ..
  | setContrast factor => exact setContrastBody factor s
  | dim | invert => exact emit _ s
  | scrollHorizontal | scrollVertical | scrollDiagonal => exact startScroll ..
  | stopScroll => exact stopScrollBody s
  | stop => exact stopBody s
  | _ => exact refl s

end OnlyExtends

theorem exec_extends_out_results {i : Instr} {s t : State} (h : exec i s = .next t) :
    s.out <+: t.out ∧ s.results <+: t.results ∧ t.cfg = s.cfg := by
  obtain ⟨-, bs, rfl⟩ | ⟨-, e, -, rfl⟩ | ⟨-, -, rfl⟩ := exec_next_cases h
  · exact ⟨List.prefix_refl _, List.prefix_refl _, rfl⟩
  · exact ⟨List.prefix_refl _, List.prefix_append _ _, rfl⟩
  · have hx := (OnlyExtends.opBody i s).trans (.addResult _ (opBody i s).host .ok)
    exact ⟨hx.out, hx.results, hx.cfg⟩

/-- Settles O15: accepting a request leaves the trace, the results and CFG, and an instruction only extends them. -/
theorem stepOnlyExtendsTheTrace : Obligations.StepOnlyExtendsTheTrace := by
  intro s t h
  obtain ⟨-, rfl⟩ | ⟨r, rest, i, -, -, -, he⟩ := step_next_cases h
  · exact ⟨List.prefix_refl _, List.prefix_refl _, rfl⟩
  · simpa using exec_extends_out_results he

end Sys2Proof.Machine
end

section
/-! The invariant: every instruction keeps both memories canonical and in bounds and emits legal events alone
(spec/10_state.md R28, R30; spec/30_encoding.md R85). -/

namespace Sys2Proof.Machine

theorem inv_clearBody {s : State} (h : s.Inv) : (clearBody s).Inv := inv_mapRaster h _

theorem inv_rectBody {s : State} (h : s.Inv) (ov : Overlay) (img : Image) (x0 y0 x1 y1 : Int) :
    (rectBody ov img x0 y0 x1 y1 s).Inv := by
  unfold rectBody
  split
  · exact h
  · exact inv_mapRaster h _

theorem inv_initSequence {s : State} (h : s.Inv) : (initSequence s).Inv := by
  have hpins := inv_emitAll h (legal_pinEvents s.cfg)
  have hhead := inv_emitAll hpins (es := initFramesHead s.cfg) (by simpa using legal_initFramesHead s.cfg)
  exact inv_emitAll (inv_withContrast hhead _) (by simpa using legal_initFramesTail s.cfg)

theorem inv_beginBody {s : State} (h : s.Inv) : (beginBody s).Inv :=
  inv_withBegun (inv_syncBody (inv_clearBody (inv_initSequence h))) true

/-- SET_PIXEL writes inside dbuf when its check passes (R55, R113). -/
theorem inv_setPixelBody {s : State} (h : s.Inv) {x y : I32} (on : Bool)
    (hin : pixelInRange s.cfg.dims x.toInt y.toInt = true) : (setPixelBody on x.toNat y.toNat s).Inv := by
  obtain ⟨hraster, hrasterBelow, hdbuf, hdbufBelow, hout⟩ := h
  obtain ⟨-, -, -, -, hindex⟩ := pixelInRange_nat hin
  exact ⟨hraster, hrasterBelow, Memory.wf_write hdbuf _ _, Memory.below_write hdbufBelow hindex _, hout⟩

theorem inv_setContrastBody {s : State} (h : s.Inv) (factor : Rat) : (setContrastBody factor s).Inv :=
  inv_emit (inv_withContrast (inv_emitAll h (legal_clampReports _ factor)) _) rfl

theorem inv_dimBody {s : State} (h : s.Inv) (on : Bool) : (dimBody on s).Inv := inv_emit h rfl

theorem inv_invertBody {s : State} (h : s.Inv) (on : Bool) : (invertBody on s).Inv :=
  inv_emit h (legal_invertFrame _ on)

theorem inv_scrollPrologue {s : State} (h : s.Inv) : (scrollPrologue s).Inv := inv_syncBody (inv_emit h rfl)

theorem inv_startScroll {s : State} (h : s.Inv) {setup : List Event} (m : ScrollMode)
    (hsetup : setup.all (legalEvent s.cfg) = true) : (startScroll setup m s).Inv := by
  have hactivate : legalEvent s.cfg (.cmd encScrollActivate) = true := rfl
  refine inv_withScroll (inv_emitAll (inv_scrollPrologue h) ?_) m
  rw [scrollPrologue_cfg, List.all_append, hsetup, List.all_cons, hactivate, List.all_nil]
  rfl

theorem inv_stopScrollBody {s : State} (h : s.Inv) : (stopScrollBody s).Inv :=
  inv_withScroll (inv_scrollPrologue h) .inactive

theorem inv_stopBody {s : State} (h : s.Inv) : (stopBody s).Inv :=
  inv_emit (inv_syncBody (inv_clearBody (inv_dimBody (inv_invertBody (inv_stopScrollBody h) false) false))) rfl

theorem pixelInRange_of_pass {d : Dims} {x y : Int} (h : pixelVerdict d x y = .pass) : pixelInRange d x y = true := by
  unfold pixelVerdict at h
  split at h
  · assumption
  · cases h

theorem pageRangeOk_of_pass {d : Dims} {sp ep : Int} (h : pageVerdict d sp ep = .pass) :
    pageRangeOk d sp ep = true := by
  unfold pageVerdict at h
  split at h
  · assumption
  · cases h

theorem diagonal_checks_of_pass {d : Dims} {sp ep voff : Int} (h : diagonalVerdict d sp ep voff = .pass) :
    vOffsetOk d voff = true ∧ (pageRangeOk d sp ep || !Config.diagChecksPageRange) = true := by
  unfold diagonalVerdict at h
  split at h
  case isTrue hv =>
    split at h
    · exact ⟨hv, ‹_›⟩
    · cases h
  case isFalse => cases h

/-- A checked vertical offset is emitted as itself, below W (R80, R204). -/
theorem low8_lt_width_of_vOffsetOk {d : Dims} {voff : I32} (h : vOffsetOk d voff.toInt = true) :
    (low8 voff).toNat < width d := by
  simp only [vOffsetOk, Bool.and_eq_true, decide_eq_true_eq] at h
  have hw := width_le d
  rw [toNat_low8 (by omega) (by omega)]
  omega

/-- An operation whose checks pass keeps the invariant. -/
theorem inv_opBody {i : Instr} {s : State} (h : s.Inv) (hpass : opVerdict s.cfg.dims i = .pass) :
    (opBody i s).Inv := by
  cases i with
  | begin => exact inv_beginBody h
  | clear => exact inv_clearBody h
  | sync => exact inv_syncBody h
  | setPixel on x y => exact inv_setPixelBody h on (pixelInRange_of_pass hpass)
  | drawImage | drawText => exact inv_rectBody h ..
  | setContrast factor => exact inv_setContrastBody h factor
  | dim on => exact inv_dimBody h on
  | invert on => exact inv_invertBody h on
  | scrollHorizontal hdir freq sp ep =>
    exact inv_startScroll h _ (legal_horizontalSetup hdir freq (pageRangeOk_of_pass hpass))
  | scrollVertical vdir freq => exact inv_startScroll h _ (legal_verticalSetup s.cfg vdir freq)
  | scrollDiagonal hdir freq sp ep voff fixed rows =>
    obtain ⟨hvoff, -⟩ := diagonal_checks_of_pass hpass
    exact inv_startScroll h _ (legal_diagonalSetup hdir freq _ _ _ _ (low8_lt_width_of_vOffsetOk hvoff))
  | stopScroll => exact inv_stopScrollBody h
  | stop => exact inv_stopBody h
  | _ => exact h

theorem exec_keeps_inv {i : Instr} {s t : State} (h : s.Inv) (he : exec i s = .next t) : t.Inv := by
  obtain ⟨-, bs, rfl⟩ | ⟨-, e, -, rfl⟩ | ⟨-, hpass, rfl⟩ := exec_next_cases he
  · exact inv_withEncoded h bs
  · exact inv_addResult (inv_withInput h _) _ _
  · exact inv_addResult (inv_opBody h hpass) _ _

/-- Settles O14: accepting a request keeps the invariant, and so does every instruction. -/
theorem stepKeepsTheInvariant : Obligations.StepKeepsTheInvariant := by
  intro s t h hstep
  obtain ⟨-, rfl⟩ | ⟨r, rest, i, -, -, -, he⟩ := step_next_cases hstep
  · exact h
  · exact exec_keeps_inv (inv_accept h i r rest) he

end Sys2Proof.Machine
end

section
/-! What each host operation writes beside the trace (spec/10_state.md R25, R28, R30, R35). -/

namespace Sys2Proof.Machine

/-- A scroll start whose checks pass is one that performs its SyncBody and sends its frames (R200, R202, R204). -/
theorem scrollChecksPass_of_pass {d : Dims} {i : Instr} (h : opVerdict d i = .pass) : scrollChecksPass d i = true := by
  cases i with
  | scrollHorizontal => exact pageRangeOk_of_pass h
  | scrollDiagonal => exact Bool.and_eq_true_iff.mpr (diagonal_checks_of_pass h)
  | _ => rfl

/-! ### The fields that the bodies leave -/

@[simp] theorem rectBody_storedContrast (ov : Overlay) (img : Image) (x0 y0 x1 y1 : Int) (s : State) :
    (rectBody ov img x0 y0 x1 y1 s).storedContrast = s.storedContrast := by unfold rectBody; split <;> rfl
@[simp] theorem rectBody_dbuf (ov : Overlay) (img : Image) (x0 y0 x1 y1 : Int) (s : State) :
    (rectBody ov img x0 y0 x1 y1 s).dbuf = s.dbuf := by unfold rectBody; split <;> rfl
@[simp] theorem rectBody_ghostBegun (ov : Overlay) (img : Image) (x0 y0 x1 y1 : Int) (s : State) :
    (rectBody ov img x0 y0 x1 y1 s).ghostBegun = s.ghostBegun := by unfold rectBody; split <;> rfl
@[simp] theorem rectBody_pixelPending (ov : Overlay) (img : Image) (x0 y0 x1 y1 : Int) (s : State) :
    (rectBody ov img x0 y0 x1 y1 s).pixelPending = s.pixelPending := by unfold rectBody; split <;> rfl
@[simp] theorem rectBody_out (ov : Overlay) (img : Image) (x0 y0 x1 y1 : Int) (s : State) :
    (rectBody ov img x0 y0 x1 y1 s).out = s.out := by unfold rectBody; split <;> rfl
@[simp] theorem rectBody_draws (ov : Overlay) (img : Image) (x0 y0 x1 y1 : Int) (s : State) :
    (rectBody ov img x0 y0 x1 y1 s).draws = s.draws := by unfold rectBody; split <;> rfl

@[simp] theorem setContrastBody_raster (q : Rat) (s : State) :
    (setContrastBody q s).raster = s.raster := by simp [setContrastBody]
@[simp] theorem setContrastBody_dbuf (q : Rat) (s : State) :
    (setContrastBody q s).dbuf = s.dbuf := by simp [setContrastBody]
@[simp] theorem setContrastBody_ghostBegun (q : Rat) (s : State) :
    (setContrastBody q s).ghostBegun = s.ghostBegun := by simp [setContrastBody]
@[simp] theorem setContrastBody_pixelPending (q : Rat) (s : State) :
    (setContrastBody q s).pixelPending = s.pixelPending := by simp [setContrastBody]

@[simp] theorem stopBody_storedContrast (s : State) : (stopBody s).storedContrast = s.storedContrast := by
  simp [stopBody, stopScrollBody, dimBody, invertBody]
@[simp] theorem stopBody_ghostBegun (s : State) : (stopBody s).ghostBegun = s.ghostBegun := by
  simp [stopBody, stopScrollBody, dimBody, invertBody]

/-! ### What each operation leaves -/

theorem opBody_storedContrast {i : Instr} (h : writesContrast i = false) (s : State) :
    (opBody i s).storedContrast = s.storedContrast := by
  cases i with
  | begin | setContrast => cases h
  | sync => exact syncBody_storedContrast s
  | drawImage | drawText => exact rectBody_storedContrast ..
  | dim | invert => exact emit_storedContrast _ s
  | scrollHorizontal | scrollVertical | scrollDiagonal => exact startScroll_storedContrast ..
  | stopScroll => exact scrollPrologue_storedContrast s
  | stop => exact stopBody_storedContrast s
  | _ => rfl

theorem opBody_raster {i : Instr} (h : writesRaster i = false) (s : State) : (opBody i s).raster = s.raster := by
  cases i with
  | begin | clear | drawImage | drawText | stop => cases h
  | sync => exact syncBody_raster s
  | setContrast q => exact setContrastBody_raster q s
  | dim | invert => exact emit_raster _ s
  | scrollHorizontal | scrollVertical | scrollDiagonal => exact startScroll_raster ..
  | stopScroll => exact scrollPrologue_raster s
  | _ => rfl

theorem opBody_dbuf_pixelPending {i : Instr} (hsync : performsSync i = false)
    (hpixel : ∀ on x y, i ≠ .setPixel on x y) (s : State) : (opBody i s).dbuf = s.dbuf ∧ (opBody i s).pixelPending = s.pixelPending := by
  cases i with
  | begin | sync | scrollHorizontal | scrollVertical | scrollDiagonal | stopScroll | stop => cases hsync
  | setPixel on x y => exact absurd rfl (hpixel on x y)
  | drawImage | drawText => exact ⟨rectBody_dbuf .., rectBody_pixelPending ..⟩
  | setContrast q => exact ⟨setContrastBody_dbuf q s, setContrastBody_pixelPending q s⟩
  | dim | invert => exact ⟨emit_dbuf _ s, emit_pixelPending _ s⟩
  | _ => exact ⟨rfl, rfl⟩

theorem opBody_ghostBegun {i : Instr} (h : i ≠ .begin) (s : State) : (opBody i s).ghostBegun = s.ghostBegun := by
  cases i with
  | begin => exact absurd rfl h
  | sync => exact syncBody_ghostBegun s
  | drawImage | drawText => exact rectBody_ghostBegun ..
  | setContrast q => exact setContrastBody_ghostBegun q s
  | dim | invert => exact emit_ghostBegun _ s
  | scrollHorizontal | scrollVertical | scrollDiagonal => exact startScroll_ghostBegun ..
  | stopScroll => exact scrollPrologue_ghostBegun s
  | stop => exact stopBody_ghostBegun s
  | _ => rfl

theorem opBody_out_draws {i : Instr} (h : sendsFrames i = false) (s : State) :
    (opBody i s).out = s.out ∧ (opBody i s).draws = s.draws := by
  cases i with
  | begin | sync | setContrast | dim | invert | scrollHorizontal | scrollVertical | scrollDiagonal | stopScroll
  | stop => cases h
  | drawImage | drawText => exact ⟨rectBody_out .., rectBody_draws ..⟩
  | _ => exact ⟨rfl, rfl⟩

/-- Settles O16: a command writes the encoder's answer alone, an error nothing of these fields, and an operation whose
checks pass what its body writes. -/
theorem frameOfEveryInstr : Obligations.FrameOfEveryInstr := by
  intro i s t h
  obtain ⟨hcommand, bs, rfl⟩ | ⟨-, e, -, rfl⟩ | ⟨-, hpass, rfl⟩ := exec_next_cases h
  · simp [hcommand]
  · simp
  · have hx := OnlyExtends.opBody i s
    have hchecks := scrollChecksPass_of_pass hpass
    refine ⟨hx.cfg, hx.host, hx.owner, fun hc => opBody_storedContrast hc s, fun hr => opBody_raster hr s,
      fun hsync hpixel => opBody_dbuf_pixelPending ?_ hpixel s, fun _ => hx.encoded,
      fun hbegin => opBody_ghostBegun hbegin s, fun hframes => opBody_out_draws ?_ s⟩
    · simpa [runsSync, hchecks] using hsync
    · simpa [runsFrames, hchecks] using hframes

end Sys2Proof.Machine
end

section
/-! What the decoder answers: a well-formed instruction of the interface it reads (spec/30_encoding.md R72, R83). -/

namespace Sys2Proof

/-- A well-formed instruction of the interface `p`. -/
def WellFormedOn (p : Port) (i : Instr) : Prop := i.wellFormed = true ∧ i.port = p

/-- Every answer of `x` satisfies `P`. -/
def AnswersSatisfy {α : Type} (P : α → Prop) (x : Except DecodeError α) : Prop := ∀ a, x = .ok a → P a

theorem answersSatisfy_bind {α β : Type} {P : α → Prop} {Q : β → Prop} {x : Except DecodeError α}
    {f : α → Except DecodeError β} (hx : AnswersSatisfy P x) (hf : ∀ a, P a → AnswersSatisfy Q (f a)) :
    AnswersSatisfy Q (x >>= f) := by
  intro b hb
  cases x with
  | error e => cases hb
  | ok a => exact hf a (hx a rfl) b hb

/-- An operand of which nothing has to be known. -/
theorem answersSatisfy_bind_any {α β : Type} {Q : β → Prop} {x : Except DecodeError α}
    {f : α → Except DecodeError β} (hf : ∀ a, AnswersSatisfy Q (f a)) : AnswersSatisfy Q (x >>= f) :=
  answersSatisfy_bind (P := fun _ => True) (fun _ _ => trivial) fun a _ => hf a

theorem answersSatisfy_finish {P : Instr → Prop} {i : Instr} (h : P i) (r : List Slot) :
    AnswersSatisfy P (finish i r) := fun _ hj => finish_ok hj ▸ h

theorem answersSatisfy_takeImage (r : List Slot) :
    AnswersSatisfy (fun a : Image × List Slot => a.1.wellFormed = true) (takeImage r) := fun _ ha => takeImage_ok ha

theorem decodeDrawImage_wellFormedOn (r : List Slot) :
    AnswersSatisfy (WellFormedOn .host) (decodeDrawImage r) :=
  answersSatisfy_bind_any fun _ => answersSatisfy_bind (answersSatisfy_takeImage _) fun _ himg =>
    answersSatisfy_bind_any fun _ => answersSatisfy_bind_any fun _ => answersSatisfy_bind_any fun _ =>
    answersSatisfy_bind_any fun _ => answersSatisfy_finish (i := .drawImage ..) ⟨himg, rfl⟩ _

theorem decodeTag_wellFormedOn (tag : Byte) (r : List Slot) :
    AnswersSatisfy (WellFormedOn .host) (decodeTag tag r) := by
  unfold decodeTag
  split
  case h_5 => exact decodeDrawImage_wellFormedOn r
  case h_15 => exact fun _ h => nomatch h
  all_goals
    repeat refine answersSatisfy_bind_any fun _ => ?_
    exact answersSatisfy_finish ⟨rfl, rfl⟩ _

theorem decodeHost_wellFormedOn (ws : List Slot) : AnswersSatisfy (WellFormedOn .host) (decodeHost ws) := by
  unfold decodeHost
  split
  · exact decodeTag_wellFormedOn _ _
  · exact fun _ h => nomatch h
  · exact fun _ h => nomatch h

/-- The parameters of a command have no bound but their types. -/
theorem decodeParams_wellFormedOn {op : Byte} {n : CommandName} {ps : List Byte} {i : Instr}
    (h : decodeParams op n ps = some i) : WellFormedOn .encoder i := by
  cases n
  all_goals
    simp only [decodeParams, params0, params1, params2, paramsHorizontal, paramsDiagonal] at h
    split at h
    · cases h
      exact ⟨rfl, rfl⟩
    · cases h

theorem decodeCommand_wellFormedOn (bs : List Byte) : AnswersSatisfy (WellFormedOn .encoder) (decodeCommand bs) := by
  intro i h
  unfold decodeCommand at h
  split at h
  · cases h
  · split at h
    · cases h
    · split at h
      · cases h
        exact decodeParams_wellFormedOn ‹_›
      · cases h

/-- A word that decodes spells a well-formed instruction of the interface it was read on. -/
theorem decode_wellFormedOn (p : Port) (ws : List Slot) : AnswersSatisfy (WellFormedOn p) (decode p ws) := by
  cases p with
  | host => exact decodeHost_wellFormedOn ws
  | encoder =>
    intro i h
    simp only [decode] at h
    split at h
    · exact decodeCommand_wellFormedOn _ i h
    · cases h

namespace Machine

/-- With an ordered request that decodes at the head of the input, a step accepts it and runs it. -/
theorem step_of_decoded {s : State} {r : Request} {rest : List Request} {i : Instr} (hin : s.input = r :: rest)
    (hdecode : decode r.port r.words = .ok i) (hordered : unordered i r s = false) :
    step s = exec i (accept i r rest s) := by
  have hinstr : r.instr = .ok i := hdecode
  simp [step, hin, hinstr, hordered]

/-- Settles O7: the decoder answers a well-formed instruction, and the step runs it on the state that `accept` gives. -/
theorem stepRunsTheDecodedInstr : Obligations.StepRunsTheDecodedInstr := by
  intro s r rest i hin hdecode hordered
  obtain ⟨hwf, -⟩ := decode_wellFormedOn r.port r.words i hdecode
  exact ⟨hwf, step_of_decoded hin hdecode hordered⟩

end Machine
end Sys2Proof
end

section
/-! The CFG register at construction (spec/10_state.md R23; spec/60_exceptions.md R244). -/

namespace Sys2Proof.Machine

/-- Of the four dims codes, 3 alone is unsupported (R84). -/
theorem cfgOf_eq_none_iff : ∀ v : BitVec 5, cfgOf v = none ↔ v.toNat % 4 = 3 := by decide

/-- The register is read back from the configuration it stands for. -/
theorem cfgBits_of_cfgOf : ∀ v : BitVec 5, ∀ c ∈ cfgOf v, cfgBits c = v := by decide

/-- The layout of R23, by arithmetic on the register's value. -/
theorem fields_of_cfgOf : ∀ v : BitVec 5, ∀ c ∈ cfgOf v,
    (v.toNat % 4 = 0 → c.dims = .w128h64) ∧ (v.toNat % 4 = 1 → c.dims = .w128h32)
    ∧ (v.toNat % 4 = 2 → c.dims = .w96h16)
    ∧ (c.vcc = if v.toNat / 4 % 2 = 1 then .external else .internal)
    ∧ (c.bus = if v.toNat / 8 % 2 = 1 then .spi else .i2c)
    ∧ c.hasResetPin = decide (v.toNat / 16 % 2 = 1) := by decide

theorem ofCfgBits_of_none {v : BitVec 5} (h : cfgOf v = none) : State.ofCfgBits v = .error .unsupportedDims := by
  simp [State.ofCfgBits, h]

theorem ofCfgBits_of_some {v : BitVec 5} {c : Cfg} (h : cfgOf v = some c) :
    State.ofCfgBits v = .ok (State.construct c) := by
  simp [State.ofCfgBits, h]

/-- Settles O12: `cfgOf` has no configuration for dims code 3 alone, and otherwise one with the fields of the layout. -/
theorem constructionReadsTheCfgFields : Obligations.ConstructionReadsTheCfgFields := by
  intro v
  refine ⟨fun h => ofCfgBits_of_none ((cfgOf_eq_none_iff v).mpr h), fun h => ?_⟩
  obtain ⟨c, hc⟩ := Option.ne_none_iff_exists'.mp (mt (cfgOf_eq_none_iff v).mp h)
  obtain ⟨h0, h1, h2, hvcc, hbus, hpin⟩ := fields_of_cfgOf v c hc
  refine ⟨c, ofCfgBits_of_some hc, cfgBits_of_cfgOf v c hc, ?_, hvcc, hbus, hpin⟩
  have hcode : v.toNat % 4 = 0 ∨ v.toNat % 4 = 1 ∨ v.toNat % 4 = 2 := by omega
  rcases hcode with hk | hk | hk
  · rw [hk]; exact h0 hk
  · rw [hk]; exact h1 hk
  · rw [hk]; exact h2 hk

end Sys2Proof.Machine
end

section
/-! The pixel-to-buffer map (spec/20_memory.md R46, R47). A byte index is the raster address of the pixel's column on
the pixel's page, so the arithmetic of raster addresses carries over. -/

namespace Sys2Proof.Machine

theorem byteIndex_eq_pixelKey (d : Dims) (x y : Nat) : byteIndex d x y = pixelKey d x (y / 8) := rfl

theorem height_eq_pages_mul (d : Dims) : height d = pages d * 8 := by cases d <;> rfl

theorem page_lt_of_row_lt {d : Dims} {y : Nat} (hy : y < height d) : y / 8 < pages d := by
  rw [height_eq_pages_mul] at hy
  omega

theorem byteIndex_lt_bufferSize {d : Dims} {x y : Nat} (hx : x < width d) (hy : y < height d) :
    byteIndex d x y < bufferSize d :=
  calc y / 8 * width d + x < y / 8 * width d + width d := Nat.add_lt_add_left hx _
    _ = (y / 8 + 1) * width d := (Nat.succ_mul _ _).symm
    _ ≤ pages d * width d := Nat.mul_le_mul_right _ (page_lt_of_row_lt hy)

/-- The page of a byte of dbuf. -/
theorem page_lt_of_lt_bufferSize {d : Dims} {i : Nat} (hi : i < bufferSize d) : i / width d < pages d :=
  Nat.div_lt_of_lt_mul (Nat.mul_comm (width d) (pages d) ▸ hi)

theorem byteIndex_of_byte_bit (d : Dims) (i : Nat) {b : Nat} (hb : b < 8) :
    byteIndex d (i % width d) (i / width d * 8 + b) = i := by
  have hpage : (i / width d * 8 + b) / 8 = i / width d := by omega
  rw [byteIndex, hpage, Nat.div_add_mod']

/-- Settles O22: column and page of a byte index are those of the pixel it came from, and the other way round. -/
theorem pixelMapIsABijection : Obligations.PixelMapIsABijection := by
  intro d
  constructor
  · intro x y hx hy
    refine ⟨page_lt_of_row_lt hy, rfl, rfl, byteIndex_lt_bufferSize hx hy, Nat.mod_lt _ (by decide), ?_, ?_⟩
    · rw [byteIndex_eq_pixelKey, pixelKey_mod hx]
    · rw [byteIndex_eq_pixelKey, pixelKey_div hx]
      exact Nat.div_add_mod' y 8
  · intro i b hi hb
    refine ⟨Nat.mod_lt _ (width_pos d), ?_, byteIndex_of_byte_bit d i hb, ?_⟩
    · have hpage := page_lt_of_lt_bufferSize hi
      rw [height_eq_pages_mul]
      omega
    · unfold bitIndex
      omega

end Sys2Proof.Machine
end

section
/-! No instruction faults, and no step does (spec/20_memory.md R55; spec/60_exceptions.md R248). -/

namespace Sys2Proof.Machine

theorem Verdict.answer_ne_fault (v : Verdict) (s t : State) (f : Fault) : v.answer s t ≠ .fault f := by
  cases v <;> exact nofun

theorem exec_ne_fault (i : Instr) (s : State) (f : Fault) : exec i s ≠ .fault f := by
  cases hi : isCommand i
  · rw [exec_of_host hi]
    exact Verdict.answer_ne_fault _ _ _ f
  · obtain ⟨bs, he⟩ := exec_of_command hi s
    rw [he]
    exact nofun

/-- Settles O10: a step waits, refuses, or runs an instruction, and no instruction faults. -/
theorem noStepFaults : Obligations.NoStepFaults := by
  intro s f
  unfold step
  split
  · exact nofun
  · split
    · exact nofun
    · split
      · exact nofun
      · exact exec_ne_fault _ _ f

end Sys2Proof.Machine
end

section
/-! The tables of the statements are the model's (spec/00_scope.md R7; spec/40_framebuffer.md R117, R118;
spec/42_command_encoder.md R177; spec/43_scroll.md R205; spec/44_contrast_invert.md R220, R222). -/

namespace Sys2Proof.Machine

theorem expected_geometry_eq (d : Dims) : Expected.geometry d = (width d, height d, pages d) := by
  cases d <;> rfl

theorem windowFrames_eq_expected (d : Dims) : windowFrames d = Expected.window d := by
  cases d <;> rfl

theorem expected_packed_eq (s : State) : Expected.packed s = packBuffer s := rfl

/-- The three frames of SyncBody (R117). -/
theorem syncFrames_eq_expected (s : State) : syncFrames (packBuffer s) = Expected.sync s := by
  rw [syncFrames_packBuffer, windowFrames_eq_expected, Expected.sync]

/-- The frames of a SyncBody depend on the configuration and the raster alone. -/
theorem expected_sync_congr {s t : State} (hcfg : t.cfg = s.cfg) (hraster : t.raster = s.raster) :
    Expected.sync t = Expected.sync s := by
  have hpixel : t.pixel = s.pixel := by
    unfold State.pixel
    rw [hcfg, hraster]
  rw [Expected.sync, Expected.sync, hcfg, hpixel]

/-- SyncBody of a cleared raster sends zero bytes (R120). -/
theorem expected_sync_clearBody (s : State) : Expected.sync (clearBody s) = Expected.blankSync s.cfg.dims := by
  rw [← syncFrames_eq_expected, syncFrames, bufferBytes_packBuffer_clearBody, windowFrames_eq_expected]
  rfl

/-- BEGIN's events up to SyncBody, in the order of R177. -/
theorem expected_init_eq (c : Cfg) : Expected.init c = pinEvents c ++ initFramesHead c ++ initFramesTail c := by
  obtain ⟨d, v, b, p⟩ := c
  cases d <;> cases v <;> cases p <;> rfl

theorem expected_vertical_eq (d : Dims) (vdir : VDir) (freq : Freq) :
    Expected.vertical d vdir freq = verticalSetup d vdir freq := by
  cases d <;> cases vdir <;> rfl

/-- R246, R252: the report of a draw. -/
theorem drawnReport_eq_expected (n : Nat) (e : Event) : drawnReport n e = Expected.report n e := by
  cases e with
  | cmd bs | data bs => simp only [drawnReport, Expected.report]; cases Config.transportOutcome n <;> rfl
  | wait name => simp only [drawnReport, Expected.report]; cases Config.waitInterrupted n <;> rfl
  | pin l | report k => rfl

theorem clampFactor_eq_ite (q : Rat) : clampFactor q = if q < 0 then 0 else if 1 < q then 1 else q := by
  unfold clampFactor
  split
  case isTrue hneg => rw [max_eq_right hneg.le, min_eq_left zero_le_one]
  case isFalse hneg =>
    rw [max_eq_left (not_lt.mp hneg)]
    split
    case isTrue hone => exact min_eq_right hone.le
    case isFalse hone => exact min_eq_left (not_lt.mp hone)

/-- Clamping changes the factors outside 0..1 and no other (R221). -/
theorem clampFactor_ne_iff (q : Rat) : clampFactor q ≠ q ↔ q < 0 ∨ 1 < q := by
  rw [clampFactor_eq_ite]
  split
  case isTrue hneg => simp [hneg, hneg.ne']
  case isFalse hneg =>
    split
    case isTrue hone => simp [hone, hone.ne]
    case isFalse hone => simp [hneg, hone]

theorem contrastByte_clampFactor (q : Rat) : contrastByte (clampFactor q) = Expected.contrast q := by
  rw [clampFactor_eq_ite, contrastByte, Expected.contrast]

theorem clampReports_eq_expected (q : Rat) :
    clampReports q = if q < 0 ∨ 1 < q then [.report .contrastClamped] else [] := by
  simp only [clampReports, clampFactor_ne_iff]

end Sys2Proof.Machine
end

section
/-! SET_PIXEL and SYNC in full (spec/40_framebuffer.md R113, R118). -/

namespace Sys2Proof.Machine

theorem pixelInRange_iff (d : Dims) (x y : Int) :
    pixelInRange d x y = true ↔ 0 ≤ x ∧ x < width d ∧ 0 ≤ y ∧ y < height d := by
  simp [pixelInRange, and_assoc]

/-- A byte of dbuf after SET_PIXEL's write (R113). -/
theorem bufferByte_setPixelBody {s : State} (h : s.Inv) (on : Bool) (x y j : Nat) :
    (setPixelBody on x y s).bufferByte j =
      if j = byteIndex s.cfg.dims x y then setBit (s.bufferByte j) (bitIndex y) on else s.bufferByte j := by
  obtain ⟨-, -, hwf, -, -⟩ := h
  refine (Memory.read_write hwf ..).trans ?_
  split
  case isTrue hj => rw [hj]
  case isFalse => rfl

/-- Settles O23: in range the write is `setPixelBody`'s, read back byte by byte; out of range it is the error. -/
theorem setPixelWritesOneBit : Obligations.SetPixelWritesOneBit := by
  intro s on x y hinv
  rw [expected_geometry_eq]
  split
  case isTrue h =>
    have hin := (pixelInRange_iff ..).mpr h
    obtain ⟨hx, hy, -⟩ := pixelInRange_nat hin
    have hxNat : x.toInt.toNat = x.toNat := by omega
    have hyNat : y.toInt.toNat = y.toNat := by omega
    refine ⟨(setPixelBody on x.toNat y.toNat s).dbuf, execSetPixel_inRange hin, fun j => ?_⟩
    rw [hxNat, hyNat]
    exact bufferByte_setPixelBody hinv on x.toNat y.toNat j
  case isFalse h =>
    exact execSetPixel_outOfRange (Bool.eq_false_iff.mpr fun hin => h ((pixelInRange_iff ..).mp hin))

/-- Settles O28: in a quiet state SyncBody packs, then leaves the trace of its three frames. -/
theorem syncSendsTheWholeBuffer : Obligations.SyncSendsTheWholeBuffer := by
  intro s hquiet
  refine ⟨?_, fun i => bufferByte_packBuffer s i⟩
  have hsync : syncBody s = (packBuffer s).emitted (Expected.sync s) := by
    rw [syncBody_quiet hquiet, syncFrames_eq_expected]
    rfl
  rw [expected_packed_eq, ← complete_emitted, ← hsync]
  rfl

end Sys2Proof.Machine
end

section
/-! What may come between two events of an operation: waiting INVERTs of other hosts, with their frames and reports, and
nothing else (spec/20_memory.md R60; spec/60_exceptions.md R258). -/

namespace Sys2Proof.Machine

/-- An INVERT frame, or the report of one that failed. -/
def InvertOrReport (f : Event) : Prop := f = .cmd [0xA6] ∨ f = .cmd [0xA7] ∨ f = .report .transportFailure

/-- `t` is `s` after frames of other hosts: the requests that ran are gone, none of them the running host's, and the
trace holds their frames and reports. -/
structure OnlyInvertsRan (s t : State) : Prop where
  host  : t.host = s.host
  input : t.input.Sublist s.input
  own   : t.input.filter (fun r => decide (r.host = s.host)) = s.input.filter fun r => decide (r.host = s.host)
  out   : ∃ es, t.out = s.out ++ es ∧ ∀ f ∈ es, InvertOrReport f

theorem OnlyInvertsRan.of_takeDraws (s : State) (k : Nat) : OnlyInvertsRan s (s.takeDraws k) :=
  ⟨rfl, .refl _, rfl, [], (List.append_nil _).symm, by simp⟩

theorem OnlyInvertsRan.refl (s : State) : OnlyInvertsRan s s := .of_takeDraws s 0

theorem OnlyInvertsRan.trans {s t u : State} (h : OnlyInvertsRan s t) (h' : OnlyInvertsRan t u) :
    OnlyInvertsRan s u := by
  obtain ⟨es, hes, hall⟩ := h.out
  obtain ⟨es', hes', hall'⟩ := h'.out
  refine ⟨h'.host.trans h.host, h'.input.trans h.input, ?_, es ++ es', ?_, ?_⟩
  · have hown := h'.own
    rw [h.host] at hown
    exact hown.trans h.own
  · rw [hes', hes, List.append_assoc]
  · exact fun f hf => (List.mem_append.mp hf).elim (hall f) (hall' f)

/-- A frame that may take the bus is that of one waiting request of another host; the others stay, in their order. -/
theorem mem_intrudersFrom {cur : HostId} {before waiting : List Request} {w : Intruder}
    (h : w ∈ intrudersFrom cur before waiting) :
    ∃ ahead r behind, before ++ waiting = ahead ++ r :: behind ∧ w.rest = ahead ++ behind ∧ r.host ≠ cur := by
  induction waiting generalizing before with
  | nil => cases h
  | cons r rest ih =>
    rw [intrudersFrom, List.mem_append] at h
    rcases h with hhead | htail
    · split at hhead
      · split at hhead
        case isTrue hother =>
          rw [List.mem_singleton.mp hhead]
          exact ⟨before, r, rest, rfl, rfl, hother.1⟩
        case isFalse => cases hhead
      · cases hhead
    · obtain ⟨ahead, r', behind, hsplit, hrest, hother⟩ := ih htail
      exact ⟨ahead, r', behind, by rw [← hsplit, List.append_assoc]; rfl, hrest, hother⟩

theorem invertOrReport_invertFrame (on : Bool) : InvertOrReport (.cmd (invertFrame on)) := by
  cases on
  · exact .inl rfl
  · exact .inr (.inl rfl)

theorem invertOrReport_of_mem_drawnReport {n : Nat} {bs : List Byte} {f : Event}
    (h : f ∈ drawnReport n (.cmd bs)) : InvertOrReport f := by
  simp only [drawnReport] at h
  split at h
  · cases h
  · exact .inr (.inr (List.mem_singleton.mp h))

theorem onlyInvertsRan_runIntruder {s : State} {w : Intruder} (h : w ∈ s.intruders) :
    OnlyInvertsRan s (runIntruder w s) := by
  obtain ⟨ahead, r, behind, hinput, hrest, hother⟩ := mem_intrudersFrom h
  rw [List.nil_append] at hinput
  have hran : (runIntruder w s).input = ahead ++ behind := hrest
  refine ⟨rfl, ?_, ?_, .cmd (invertFrame w.on) :: drawnReport s.draws (.cmd (invertFrame w.on)), rfl, ?_⟩
  · rw [hran, hinput]
    exact (List.sublist_cons_self r behind).append_left ahead
  · rw [hran, hinput]
    simp [hother]
  · intro f hf
    rcases List.mem_cons.mp hf with rfl | hreport
    · exact invertOrReport_invertFrame w.on
    · exact invertOrReport_of_mem_drawnReport hreport

/-- The frame that a draw picks is one of those that may take the bus. -/
theorem mem_intruders_of_pickIntruder {s : State} {w : Intruder} (h : pickIntruder s = some w) : w ∈ s.intruders := by
  obtain ⟨k, -, hk⟩ := Option.bind_eq_some_iff.mp h
  exact List.mem_of_getElem? hk

theorem onlyInvertsRan_frameBoundary (n : Nat) (s : State) : OnlyInvertsRan s (frameBoundary n s) := by
  induction n generalizing s with
  | zero => exact .refl s
  | succ n ih =>
    simp only [frameBoundary]
    split
    · exact .refl s
    · split
      case h_1 => exact .of_takeDraws s 1
      case h_2 w hpick =>
        have hwaits : w ∈ (s.takeDraws 1).intruders := mem_intruders_of_pickIntruder (s := s) hpick
        have hrun := onlyInvertsRan_runIntruder hwaits
        exact ((OnlyInvertsRan.of_takeDraws s 1).trans hrun).trans (ih _)

theorem samePicture_emit (e : Event) (s : State) : SamePicture s (emit e s) :=
  ⟨emit_cfg e s, emit_storedContrast e s, emit_raster e s, emit_dbuf e s, emit_ghostScroll e s, emit_ghostBegun e s,
    emit_pixelPending e s⟩

/-- Settles O57: an emission is a frame boundary, at which only INVERTs of other hosts run, and then its own event. -/
theorem onlyInvertsComeBetweenFrames : Obligations.OnlyInvertsComeBetweenFrames := by
  intro s e
  have hran : OnlyInvertsRan s (busBoundary s) := onlyInvertsRan_frameBoundary _ s
  obtain ⟨es, hes, hall⟩ := hran.out
  refine ⟨samePicture_emit e s, hran.input, hran.own, es, (busBoundary s).draws, ?_, hall⟩
  rw [emit_out, hes, drawnReport_eq_expected]

end Sys2Proof.Machine
end

section
/-! The events of an operation reach the trace in the order its rule lists them (spec/20_memory.md R58, R60). -/

namespace Sys2Proof.Machine

/-- `t` comes after `s`, and what it adds to the trace holds the events `es` in their order. -/
def Appends (es : List Event) (s t : State) : Prop := ∃ added, t.out = s.out ++ added ∧ es.Sublist added

theorem appends_nil_of_out_eq {s t : State} (h : t.out = s.out) : Appends [] s t :=
  ⟨[], by rw [h, List.append_nil], .slnil⟩

theorem Appends.trans {es es' : List Event} {s t u : State} (h : Appends es s t) (h' : Appends es' t u) :
    Appends (es ++ es') s u := by
  obtain ⟨added, hadded, hsub⟩ := h
  obtain ⟨added', hadded', hsub'⟩ := h'
  exact ⟨added ++ added', by rw [hadded', hadded, List.append_assoc], hsub.append hsub'⟩

/-- A first state that differs from `s` outside the trace. -/
theorem Appends.of_out_eq_left {es : List Event} {s s' t : State} (h : Appends es s' t) (hout : s'.out = s.out) :
    Appends es s t := (appends_nil_of_out_eq hout).trans h

theorem Appends.of_out_eq_right {es : List Event} {s t t' : State} (h : Appends es s t') (hout : t.out = t'.out) :
    Appends es s t := by
  obtain ⟨added, hadded, hsub⟩ := h
  exact ⟨added, hout.trans hadded, hsub⟩

theorem Appends.sublist_drop {es : List Event} {s t : State} (h : Appends es s t) :
    es.Sublist (t.out.drop s.out.length) := by
  obtain ⟨added, hadded, hsub⟩ := h
  rw [hadded, List.drop_left]
  exact hsub

theorem appends_emit (e : Event) (s : State) : Appends [e] s (emit e s) := by
  obtain ⟨es, hes⟩ := busBoundary_out s
  refine ⟨es ++ e :: drawnReport (busBoundary s).draws e, ?_, ?_⟩
  · rw [emit_out, hes, List.append_assoc]
  · exact List.singleton_sublist.mpr (List.mem_append_right _ List.mem_cons_self)

theorem appends_emitAll (es : List Event) (s : State) : Appends es s (emitAll es s) := by
  induction es generalizing s with
  | nil => exact appends_nil_of_out_eq rfl
  | cons e es ih => exact (appends_emit e s).trans (ih (emit e s))

/-! ### The operations -/

theorem appends_syncBody (s : State) : Appends (Expected.sync s) s (syncBody s) := by
  rw [← syncFrames_eq_expected]
  exact (appends_emitAll _ (packBuffer s)).of_out_eq_left rfl

/-- SyncBody after CLEAR's body (R120). -/
theorem appends_syncBody_clearBody (s : State) :
    Appends (Expected.blankSync s.cfg.dims) s (syncBody (clearBody s)) := by
  rw [← expected_sync_clearBody]
  exact (appends_syncBody (clearBody s)).of_out_eq_left rfl

theorem appends_initSequence (s : State) : Appends (Expected.init s.cfg) s (initSequence s) := by
  have hhead := (appends_emitAll (pinEvents s.cfg) s).trans (appends_emitAll (initFramesHead s.cfg) _)
  have htail := appends_emitAll (initFramesTail s.cfg)
    ((emitAll (initFramesHead s.cfg) (emitAll (pinEvents s.cfg) s)).withContrast (initContrast s.cfg.vcc))
  rw [expected_init_eq]
  exact hhead.trans (htail.of_out_eq_left rfl)

theorem appends_beginBody (s : State) :
    Appends (Expected.init s.cfg ++ Expected.blankSync s.cfg.dims) s (beginBody s) := by
  have hsync := appends_syncBody_clearBody (initSequence s)
  rw [(OnlyExtends.initSequence s).cfg] at hsync
  exact ((appends_initSequence s).trans hsync).of_out_eq_right (State.withBegun_out _ true)

theorem appends_setContrastBody (q : Rat) (s : State) :
    Appends (Expected.events s (.setContrast q)) s (setContrastBody q s) := by
  have hemit := appends_emit (.cmd (encSetContrast (contrastByte (clampFactor q))))
    ((emitAll (clampReports q) s).withContrast (contrastByte (clampFactor q)))
  have hall := (appends_emitAll (clampReports q) s).trans (hemit.of_out_eq_left rfl)
  rw [clampReports_eq_expected, contrastByte_clampFactor] at hall
  rw [setContrastBody, contrastByte_clampFactor, clampReports_eq_expected]
  exact hall

theorem appends_scrollPrologue (s : State) : Appends ([.cmd [0x2E]] ++ Expected.sync s) s (scrollPrologue s) := by
  rw [← expected_sync_congr (emit_cfg (.cmd encScrollDeactivate) s) (emit_raster _ s)]
  exact (appends_emit _ s).trans (appends_syncBody _)

theorem appends_startScroll (setup : List Event) (m : ScrollMode) (s : State) :
    Appends ([.cmd [0x2E]] ++ Expected.sync s ++ (setup ++ [.cmd [0x2F]])) s (startScroll setup m s) :=
  (appends_scrollPrologue s).trans (appends_emitAll (setup ++ [.cmd encScrollActivate]) _)

theorem appends_scrollVertical (vdir : VDir) (freq : Freq) (s : State) :
    Appends (Expected.events s (.scrollVertical vdir freq)) s
      (startScroll (verticalSetup s.cfg.dims vdir freq) .vertical s) := by
  rw [Expected.events, expected_vertical_eq, List.append_assoc _ (verticalSetup ..)]
  exact appends_startScroll ..

theorem appends_stopScrollBody (s : State) : Appends ([.cmd [0x2E]] ++ Expected.sync s) s (stopScrollBody s) :=
  (appends_scrollPrologue s).of_out_eq_right (State.withScroll_out _ .inactive)

theorem appends_dimBody (on : Bool) (s : State) :
    Appends [.cmd [0x81, if on then 0x00 else s.storedContrast]] s (dimBody on s) := appends_emit ..

theorem appends_invertBody (on : Bool) (s : State) :
    Appends [.cmd [if on then 0xA7 else 0xA6]] s (invertBody on s) := by
  cases on <;> exact appends_emit ..

/-- STOP's un-invert and un-dim (R230). -/
theorem appends_dimBody_invertBody (s : State) :
    Appends [.cmd [0xA6], .cmd [0x81, s.storedContrast]] s (dimBody false (invertBody false s)) := by
  have hcontrast : (invertBody false s).storedContrast = s.storedContrast := emit_storedContrast _ s
  rw [← hcontrast]
  exact (appends_invertBody false s).trans (appends_dimBody false _)

theorem appends_stopBody (s : State) : Appends (Expected.events s .stop) s (stopBody s) := by
  have hdisplay := appends_dimBody_invertBody (stopScrollBody s)
  have hsync := appends_syncBody_clearBody (dimBody false (invertBody false (stopScrollBody s)))
  have hcontrast : (stopScrollBody s).storedContrast = s.storedContrast := scrollPrologue_storedContrast s
  have hcfg : (dimBody false (invertBody false (stopScrollBody s))).cfg = s.cfg := by
    simp [dimBody, invertBody, stopScrollBody]
  rw [hcontrast] at hdisplay
  rw [hcfg] at hsync
  exact (((appends_stopScrollBody s).trans hdisplay).trans hsync).trans (appends_emit (.cmd encDisplayOff) _)

/-- An operation whose checks pass adds the events of its rule, in their order. -/
theorem appends_opBody (i : Instr) (s : State) : Appends (Expected.events s i) s (opBody i s) := by
  cases i with
  | begin => exact appends_beginBody s
  | sync => exact appends_syncBody s
  | setContrast q => exact appends_setContrastBody q s
  | dim on => exact appends_dimBody on s
  | invert on => exact appends_invertBody on s
  | scrollHorizontal hdir freq sp ep => cases hdir <;> exact appends_startScroll ..
  | scrollVertical vdir freq => exact appends_scrollVertical vdir freq s
  | scrollDiagonal hdir freq sp ep voff fixed rows => cases hdir <;> exact appends_startScroll ..
  | stopScroll => exact appends_stopScrollBody s
  | stop => exact appends_stopBody s
  | drawImage | drawText => exact appends_nil_of_out_eq (rectBody_out ..)
  | _ => exact appends_nil_of_out_eq rfl

theorem expected_events_of_command {i : Instr} (h : isCommand i = true) (s : State) : Expected.events s i = [] := by
  cases i with
  | begin | clear | sync | setPixel | drawImage | drawText | setContrast | dim | invert | scrollHorizontal
  | scrollVertical | scrollDiagonal | stopScroll | stop => cases h
  | _ => rfl

/-- Settles O58: a command lists no event, an error is excluded, and an operation whose checks pass adds its events. -/
theorem framesOfOneOperationKeepTheirOrder : Obligations.FramesOfOneOperationKeepTheirOrder := by
  refine ⟨fun i s t h hok => ?_, fun s es => (appends_emitAll es s).sublist_drop⟩
  obtain ⟨hcommand, -⟩ | ⟨-, e, -, rfl⟩ | ⟨-, -, rfl⟩ := exec_next_cases h
  · rw [expected_events_of_command hcommand]
    exact List.nil_sublist _
  · exact absurd ⟨e, rfl⟩ hok
  · exact (appends_opBody i s).sublist_drop

end Sys2Proof.Machine
end

section
/-! The opcode table: the bit forms of R78 do not overlap, so the opcode byte decides the command (spec/30_encoding.md
R77 to R79). -/

namespace Sys2Proof

theorem mem_commandNames (n : CommandName) : n ∈ commandNames := by cases n <;> decide

/-- Two forms that agree on the bits both fix belong to one command. -/
theorem eq_of_opcode_forms_agree :
    ∀ n ∈ commandNames, ∀ m ∈ commandNames,
      opcode n &&& opcodeMask m = opcode m &&& opcodeMask n → n = m := by
  decide

theorem eq_of_fits_both_forms {op : Byte} {n m : CommandName} (hn : op &&& opcodeMask n = opcode n)
    (hm : op &&& opcodeMask m = opcode m) : n = m := by
  refine eq_of_opcode_forms_agree n (mem_commandNames n) m (mem_commandNames m) ?_
  calc opcode n &&& opcodeMask m
      = op &&& opcodeMask n &&& opcodeMask m := by rw [hn]
    _ = op &&& opcodeMask m &&& opcodeMask n := by
      rw [BitVec.and_assoc, BitVec.and_comm (opcodeMask n), BitVec.and_assoc]
    _ = opcode m &&& opcodeMask n := by rw [hm]

theorem commandOf_eq_none_iff (op : Byte) : commandOf op = none ↔ ∀ n, op &&& opcodeMask n ≠ opcode n := by
  simp [commandOf, List.find?_eq_none, mem_commandNames]

theorem commandOf_eq_some_iff (op : Byte) (n : CommandName) :
    commandOf op = some n ↔ op &&& opcodeMask n = opcode n := by
  have fits {m : CommandName} (h : commandOf op = some m) : op &&& opcodeMask m = opcode m := by
    simpa using List.find?_some h
  refine ⟨fits, fun hn => ?_⟩
  cases h : commandOf op with
  | none => exact absurd hn ((commandOf_eq_none_iff op).mp h n)
  | some m => rw [eq_of_fits_both_forms (fits h) hn]

/-- Settles O5: `commandOf` searches all 26 forms, and a byte fits at most one. -/
theorem opcodeBelongsToOneCommand : Obligations.OpcodeBelongsToOneCommand := fun op =>
  ⟨fun n => (commandOf_eq_some_iff op n).mpr, (commandOf_eq_none_iff op).mpr⟩

/-- An opcode with operand bits 0 is its own command's. -/
theorem commandOf_opcode (n : CommandName) : commandOf (opcode n) = some n :=
  (commandOf_eq_some_iff _ n).mpr (by cases n <;> rfl)

/-! ### The three opcodes that carry operand bits (R155, R158, R159) -/

theorem commandOf_startLine (l : BitVec 6) : commandOf (opcode .setStartLine ||| zext8 l) = some .setStartLine :=
  (commandOf_eq_some_iff ..).mpr (by revert l; decide)

theorem commandOf_segmentRemap (r : BitVec 1) :
    commandOf (opcode .setSegmentRemap ||| zext8 r) = some .setSegmentRemap :=
  (commandOf_eq_some_iff ..).mpr (by revert r; decide)

theorem commandOf_comScanDirection (d : BitVec 1) :
    commandOf (opcode .setComScanDirection ||| (zext8 d <<< 3)) = some .setComScanDirection :=
  (commandOf_eq_some_iff ..).mpr (by revert d; decide)

theorem startLine_of_opcode (l : BitVec 6) : (opcode .setStartLine ||| zext8 l).extractLsb' 0 6 = l := by
  revert l; decide

theorem segmentRemap_of_opcode (r : BitVec 1) : (opcode .setSegmentRemap ||| zext8 r).extractLsb' 0 1 = r := by
  revert r; decide

theorem comScanDirection_of_opcode (d : BitVec 1) :
    (opcode .setComScanDirection ||| (zext8 d <<< 3)).extractLsb' 3 1 = d := by
  revert d; decide

end Sys2Proof
end

section
/-! Decoding gives back what was encoded: the operand record of a host operation and the frame of a command
(spec/30_encoding.md R71 to R81). -/

namespace Sys2Proof

/-! ### The operand records of the host operations (R74) -/

theorem ok_bind {α β : Type} (a : α) (f : α → Except DecodeError β) : (Except.ok a >>= f) = f a := rfl

theorem decodeSetPixel_encode (on : Bool) (x y : I32) :
    decodeSetPixel (modeFlag on :: (i32Slots x ++ i32Slots y)) = .ok (.setPixel on x y) := by
  simp only [decodeSetPixel, takeMode_modeFlag, takeI32_i32Slots, takeI32_i32Slots_last, flag_of_mode, ok_bind, finish]

theorem decodeDrawImage_encode (ov : Overlay) {img : Image} (h : img.wellFormed = true) (x0 y0 x1 y1 : I32) :
    decodeDrawImage (.byte (zext8 (overlayCode ov)) :: .image img
      :: (i32Slots x0 ++ (i32Slots y0 ++ (i32Slots x1 ++ i32Slots y1)))) = .ok (.drawImage ov img x0 y0 x1 y1) := by
  simp only [decodeDrawImage, takeMode_overlayCode, takeImage, if_pos h, takeI32_i32Slots, takeI32_i32Slots_last,
    overlayOf_overlayCode, ok_bind, finish]

theorem decodeDrawText_encode (ov : Overlay) (text : String) (font : Font) (x0 y0 : I32) :
    decodeDrawText (.byte (zext8 (overlayCode ov)) :: .text text :: .font font :: (i32Slots x0 ++ i32Slots y0)) =
      .ok (.drawText ov text font x0 y0) := by
  simp only [decodeDrawText, takeMode_overlayCode, takeText, takeFont, takeI32_i32Slots, takeI32_i32Slots_last,
    overlayOf_overlayCode, ok_bind, finish]

theorem decodeDim_encode (on : Bool) : decodeDim [modeFlag on] = .ok (.dim on) := by cases on <;> rfl

theorem decodeInvert_encode (on : Bool) : decodeInvert [modeFlag on] = .ok (.invert on) := by cases on <;> rfl

theorem decodeScrollHorizontal_encode (hdir : HDir) (freq : Freq) (sp ep : I32) :
    decodeScrollHorizontal (modeScroll (hdirCode hdir) freq :: (i32Slots sp ++ i32Slots ep)) =
      .ok (.scrollHorizontal hdir freq sp ep) := by
  simp only [decodeScrollHorizontal, takeMode_modeScroll, takeI32_i32Slots, takeI32_i32Slots_last,
    direction_of_mode, freq_of_mode, hdirOf_hdirCode, ok_bind, finish]

theorem decodeScrollVertical_encode (vdir : VDir) (freq : Freq) :
    decodeScrollVertical [modeScroll (vdirCode vdir) freq] = .ok (.scrollVertical vdir freq) := by
  simp only [decodeScrollVertical, takeMode_modeScroll, direction_of_mode, freq_of_mode, vdirOf_vdirCode, ok_bind,
    finish]

theorem decodeScrollDiagonal_encode (hdir : HDir) (freq : Freq) (sp ep voff fixed rows : I32) :
    decodeScrollDiagonal (modeScroll (hdirCode hdir) freq
      :: (i32Slots sp ++ (i32Slots ep ++ (i32Slots voff ++ (i32Slots fixed ++ i32Slots rows))))) =
      .ok (.scrollDiagonal hdir freq sp ep voff fixed rows) := by
  simp only [decodeScrollDiagonal, takeMode_modeScroll, takeI32_i32Slots, takeI32_i32Slots_last,
    direction_of_mode, freq_of_mode, hdirOf_hdirCode, ok_bind, finish]

/-! ### The frames of the commands (R150 to R175) -/

/-- A frame is read as the command of its opcode with its parameters. -/
theorem decode_frame {op : Byte} {ps : List Byte} {n : CommandName} {i : Instr} (hname : commandOf op = some n)
    (hparams : decodeParams op n ps = some i) : decode .encoder ((op :: ps).map .byte) = .ok i := by
  simp only [decode, slotBytes_map, decodeCommand, hname, hparams]

/-- The same for an opcode without operand bits. -/
theorem decode_opcode_frame {n : CommandName} {ps : List Byte} {i : Instr}
    (hparams : decodeParams (opcode n) n ps = some i) : decode .encoder ((opcode n :: ps).map .byte) = .ok i :=
  decode_frame (commandOf_opcode n) hparams

/-- Settles O1: each operation's operand record and each command's parameters are read back. -/
theorem decodeOfEncodeIsTheInstr : Obligations.DecodeOfEncodeIsTheInstr := by
  intro i hwf
  cases i with
  | begin | clear | sync | setContrast | stopScroll | stop => rfl
  | setPixel on x y => exact decodeSetPixel_encode on x y
  | drawImage ov img x0 y0 x1 y1 => exact decodeDrawImage_encode ov hwf x0 y0 x1 y1
  | drawText ov text font x0 y0 => exact decodeDrawText_encode ov text font x0 y0
  | dim on => exact decodeDim_encode on
  | invert on => exact decodeInvert_encode on
  | scrollHorizontal hdir freq sp ep => exact decodeScrollHorizontal_encode hdir freq sp ep
  | scrollVertical vdir freq => exact decodeScrollVertical_encode vdir freq
  | scrollDiagonal hdir freq sp ep voff fixed rows =>
    exact decodeScrollDiagonal_encode hdir freq sp ep voff fixed rows
  | cmdSetStartLine l =>
    exact decode_frame (commandOf_startLine l) (by simp only [decodeParams, params0, startLine_of_opcode])
  | cmdSetSegmentRemap r =>
    exact decode_frame (commandOf_segmentRemap r) (by simp only [decodeParams, params0, segmentRemap_of_opcode])
  | cmdSetComScanDirection d =>
    exact decode_frame (commandOf_comScanDirection d)
      (by simp only [decodeParams, params0, comScanDirection_of_opcode])
  | cmdSetChargePump en => cases en <;> exact decode_opcode_frame rfl
  | cmdRightHorizontalScroll sp f ep | cmdLeftHorizontalScroll sp f ep =>
    exact decode_opcode_frame (by simp only [decodeParams, paramsHorizontal, freq_of_byte])
  | cmdVerticalAndRightHorizontalScroll sp f ep vo | cmdVerticalAndLeftHorizontalScroll sp f ep vo =>
    exact decode_opcode_frame (by simp only [decodeParams, paramsDiagonal, freq_of_byte])
  | _ => exact decode_opcode_frame rfl

/-- A table word laid out as the words of a well-formed instruction is read as that instruction. -/
theorem decodeTableWord_of_encode {nbits w : Nat} {i : Instr} (hwf : i.wellFormed = true)
    (hword : tableWord nbits w = (i.port, encode i)) : decodeTableWord nbits w = some i := by
  rw [decodeTableWord, hword, decodeOfEncodeIsTheInstr i hwf]
  rfl

/-- Settles O4: each word written out is the encoding of its instruction. -/
theorem specWordsDecode : Obligations.SpecWordsDecode := by
  refine ⟨?_, ?_, ?_, ?_, ?_, ?_, ?_, ?_⟩
  all_goals exact decodeTableWord_of_encode rfl rfl

end Sys2Proof
end

section
/-! What the decoder turns away: all but well-formed instructions of its interface (spec/30_encoding.md R72), and the
reserved encodings of host operations (R83). -/

namespace Sys2Proof

/-- Settles O2: `WellFormedOn` is the claim, and every answer of the decoder satisfies it. -/
theorem decodedInstrIsWellFormed : Obligations.DecodedInstrIsWellFormed := decode_wellFormedOn

theorem decodeTag_reservedTag {tag : Byte} (h : tag = 0x00 ∨ 0x0F ≤ tag.toNat) (r : List Slot) :
    decodeTag tag r = .error (.reservedTag tag) := by
  have hnone : tag.toNat = 0 ∨ 0x0F ≤ tag.toNat := h.imp_left fun h0 => congrArg BitVec.toNat h0
  unfold decodeTag
  split
  case h_15 => rfl
  all_goals omega

/-- An operation that begins with its mode byte is refused at a reserved bit, whatever follows. -/
theorem takeMode_bind_reserved {α : Type} {bits : Nat} {m : Byte} (h : 2 ^ bits ≤ m.toNat) (r : List Slot)
    (f : Byte × List Slot → Except DecodeError α) :
    takeMode bits (.byte m :: r) >>= f = .error (.reservedModeBits m) := by
  rw [takeMode, if_neg (Nat.not_lt.mpr h)]
  rfl

theorem decodeTag_reservedModeBits {tag m : Byte}
    (h : (tag ∈ [0x04, 0x08, 0x09] ∧ 2 ≤ m.toNat) ∨ (tag ∈ [0x05, 0x06] ∧ 4 ≤ m.toNat)
      ∨ (tag ∈ [0x0A, 0x0B, 0x0C] ∧ 16 ≤ m.toNat)) (r : List Slot) :
    decodeTag tag (.byte m :: r) = .error (.reservedModeBits m) := by
  simp only [List.mem_cons, List.not_mem_nil, or_false] at h
  obtain ⟨rfl | rfl | rfl, hm⟩ | ⟨rfl | rfl, hm⟩ | ⟨rfl | rfl | rfl, hm⟩ := h
  all_goals exact takeMode_bind_reserved hm r _

/-- An operation without a mode byte is refused when a byte follows its tag. -/
theorem decodeTag_superfluousMode {tag : Byte} (h : tag ∈ [0x01, 0x02, 0x03, 0x07, 0x0D, 0x0E]) (m : Byte)
    (r : List Slot) : ∃ e, decodeTag tag (.byte m :: r) = .error e := by
  simp only [List.mem_cons, List.not_mem_nil, or_false] at h
  obtain rfl | rfl | rfl | rfl | rfl | rfl := h
  all_goals exact ⟨_, rfl⟩

namespace Machine

/-- With a host request at the head of the input whose record does not decode, a step refuses it, before any other
check. -/
theorem step_of_undecoded_host {s : State} {r : Request} {rest : List Request} {tag : Byte} {ws : List Slot}
    {e : DecodeError} (hin : s.input = r :: rest) (hport : r.port = .host) (hwords : r.words = .byte tag :: ws)
    (he : decodeTag tag ws = .error e) : step s = .refused (.badEncoding e) := by
  have hinstr : r.instr = .error e := by rw [Request.instr, hport, hwords]; exact he
  simp only [step, hin, hinstr]

/-- Settles O3: each reserved encoding is an error of the decoder, and a step refuses what does not decode. -/
theorem reservedHostEncodingsAreRefused : Obligations.ReservedHostEncodingsAreRefused := by
  intro s r rest tag m ws hin hport
  refine ⟨fun hwords htag => ?_, fun hwords hmode => ?_, fun hwords htag => ?_⟩
  · exact step_of_undecoded_host hin hport hwords (decodeTag_reservedTag htag ws)
  · exact step_of_undecoded_host hin hport hwords (decodeTag_reservedModeBits hmode ws)
  · obtain ⟨e, he⟩ := decodeTag_superfluousMode htag m ws
    exact ⟨e, step_of_undecoded_host hin hport hwords he⟩

end Machine
end Sys2Proof
end

section
/-! The block's output streams: the raw command bytes (spec/30_encoding.md R79) and the bytes on the bus under their
tags (R96 to R98). -/

namespace Sys2Proof.Machine

/-- A well-sized frame at the head of a stream is read whole, and the reader goes on after it. -/
theorem readFrames_append {f : List Byte} (h : wellSizedFrame f = true) (n : Nat) (bs : List Byte) :
    readFrames (n + 1) (f ++ bs) = (readFrames n bs).map (f :: ·) := by
  cases f with
  | nil => cases h
  | cons op ps =>
    have hlength : frameLength op = some (ps.length + 1) := of_decide_eq_true h
    simp [readFrames, hlength]

/-- Settles O6, by induction on the frames. -/
theorem commandStreamSplitsIntoFrames : Obligations.CommandStreamSplitsIntoFrames := by
  intro fs hsized
  induction fs with
  | nil => rfl
  | cons f fs ih =>
    obtain ⟨hf, hfs⟩ := List.forall_mem_cons.mp hsized
    rw [List.flatten_cons, List.length_cons, readFrames_append hf, ih hfs]
    rfl

/-- Settles O59: the four frame rows of `wireOf`. -/
theorem framingOfOneFrame : Obligations.FramingOfOneFrame := fun _ => ⟨rfl, rfl, rfl, rfl⟩

/-- What the controller reads from one byte under a control byte or a D/C level (R96, R97). -/
def taggedUnder : WireLead → Byte → List (WireTag × Byte)
  | .control (some c), b => if c = 0x00 then [(.command, b)] else if c = 0x40 then [(.data, b)] else []
  | .control none, _ => []
  | .level .low, b => [(.command, b)]
  | .level .high, b => [(.data, b)]

/-- A write is read byte by byte, each under the write's control byte or D/C level. -/
theorem taggedWrite_eq (w : WireWrite) : taggedWrite w = w.payload.flatMap (taggedUnder w.lead) := by
  match w with
  | .i2c [] => rfl
  | .i2c (c :: bs) =>
    by_cases hcommand : c = 0x00
    · rw [hcommand]
      exact List.map_eq_flatMap
    · by_cases hdata : c = 0x40
      · rw [hdata]
        exact List.map_eq_flatMap
      · rw [taggedWrite, if_neg hcommand, if_neg hdata]
        exact (List.flatMap_eq_nil_iff.mpr fun b _ => by
          rw [WireWrite.lead, List.head?_cons, taggedUnder, if_neg hcommand, if_neg hdata]).symm
  | .spi .low bs => exact List.map_eq_flatMap
  | .spi .high bs => exact List.map_eq_flatMap

/-- Splitting one write changes nothing: the lead is the write's, and the payloads together are its payload. -/
theorem taggedWrite_of_splitsInto {w : WireWrite} {parts : List WireWrite} (h : splitsInto w parts = true) :
    parts.flatMap taggedWrite = taggedWrite w := by
  simp only [splitsInto, Bool.and_eq_true, List.all_eq_true, decide_eq_true_eq] at h
  obtain ⟨hlead, hpayload⟩ := h
  calc parts.flatMap taggedWrite
      = parts.flatMap fun p => p.payload.flatMap (taggedUnder w.lead) :=
        List.flatMap_congr fun p hp => by rw [taggedWrite_eq, hlead p hp]
    _ = taggedWrite w := by rw [← List.flatMap_assoc, hpayload, taggedWrite_eq]

theorem taggedWrite_of_splits {ws : List WireWrite} {parts : List (List WireWrite)}
    (h : List.Forall₂ (fun w ps => splitsInto w ps = true) ws parts) :
    parts.flatten.flatMap taggedWrite = ws.flatMap taggedWrite := by
  induction h with
  | nil => rfl
  | cons hw _ ih => rw [List.flatten_cons, List.flatMap_append, List.flatMap_cons, taggedWrite_of_splitsInto hw, ih]

/-- On either bus the controller reads a frame's bytes under the frame's tag, and nothing from another event. -/
theorem taggedWrite_wireOf (b : Bus) (e : Event) : (wireOf b e).toList.flatMap taggedWrite = taggedOf e := by
  cases e with
  | cmd bs | data bs => cases b <;> exact List.append_nil _
  | pin | wait | report => cases b <;> rfl

theorem taggedWrite_filterMap_wireOf (b : Bus) (es : List Event) :
    (es.filterMap (wireOf b)).flatMap taggedWrite = taggedStream es := by
  simp only [List.filterMap_eq_flatMap_toList, List.flatMap_assoc, taggedWrite_wireOf, taggedStream]

/-- Settles O60: the writes of a trace carry its tagged stream, and so does any split of them. -/
theorem taggedStreamIsTheSameOnBothBuses : Obligations.TaggedStreamIsTheSameOnBothBuses := fun b es =>
  ⟨taggedWrite_filterMap_wireOf b es,
    fun _ hsplit => (taggedWrite_of_splits hsplit).trans (taggedWrite_filterMap_wireOf b es)⟩

end Sys2Proof.Machine
end

section
/-! SET_PIXEL reads back, and the last write to a bit wins (spec/40_framebuffer.md R114, R115). -/

namespace Sys2Proof.Machine

theorem bitIndex_lt (y : Nat) : bitIndex y < 8 := Nat.mod_lt _ (by decide)

theorem exec_setPixel_of_inRange {s : State} {x y : I32} (on : Bool)
    (h : pixelInRange s.cfg.dims x.toInt y.toInt = true) :
    exec (.setPixel on x y) s = .next ((setPixelBody on x.toNat y.toNat s).addResult s.host .ok) :=
  execSetPixel_inRange h

theorem toInt_toNat_of_pixelInRange {d : Dims} {x y : I32} (h : pixelInRange d x.toInt y.toInt = true) :
    x.toInt.toNat = x.toNat ∧ y.toInt.toNat = y.toNat := by
  obtain ⟨hx, hy, -⟩ := pixelInRange_nat h
  omega

/-- Every bit of dbuf after SET_PIXEL's write: the addressed one holds the value written (R113). -/
theorem getLsbD_bufferByte_setPixelBody {s : State} (h : s.Inv) (on : Bool) (x y j b : Nat) :
    ((setPixelBody on x y s).bufferByte j).getLsbD b =
      if j = byteIndex s.cfg.dims x y ∧ b = bitIndex y then on else (s.bufferByte j).getLsbD b := by
  rw [bufferByte_setPixelBody h]
  by_cases hj : j = byteIndex s.cfg.dims x y
  · rw [if_pos hj]
    by_cases hb : b < 8
    · simp only [getLsbD_setBit _ (bitIndex_lt y) _ hb, hj, true_and]
    · have hge : 8 ≤ b := Nat.le_of_not_lt hb
      have hother : b ≠ bitIndex y := (Nat.lt_of_lt_of_le (bitIndex_lt y) hge).ne'
      rw [if_neg fun hjb => hother hjb.2, BitVec.getLsbD_of_ge _ _ hge, BitVec.getLsbD_of_ge _ _ hge]
  · rw [if_neg hj, if_neg fun hjb => hj hjb.1]

/-- Settles O24: SET_PIXEL completes with `setPixelBody`, whose every bit is known. -/
theorem setPixelReadsBack : Obligations.SetPixelReadsBack := by
  intro s on x y hinv hx0 hxW hy0 hyH
  have hin := (pixelInRange_iff ..).mpr ⟨hx0, hxW, hy0, hyH⟩
  obtain ⟨hx, hy⟩ := toInt_toNat_of_pixelInRange hin
  have hbits := getLsbD_bufferByte_setPixelBody hinv on x.toNat y.toNat
  rw [hx, hy]
  exact ⟨_, exec_setPixel_of_inRange on hin, (hbits _ _).trans (if_pos ⟨rfl, rfl⟩),
    fun j b hother => (hbits j b).trans (if_neg hother)⟩

theorem setBit_setBit (v : Byte) {k : Nat} (hk : k < 8) (first last : Bool) :
    setBit (setBit v k first) k last = setBit v k last := by
  refine BitVec.eq_of_getLsbD_eq fun b hb => ?_
  simp only [getLsbD_setBit k hk b hb]
  split <;> rfl

theorem Memory.write_write {α : Type} [DecidableEq α] {d : α} {m : List (Nat × α)} (h : Memory.wf d m = true)
    (a : Nat) (v w : α) : Memory.write d (Memory.write d m a v) a w = Memory.write d m a w := by
  have hfirst := Memory.wf_write h a v
  refine Memory.ext_of_wf (Memory.wf_write hfirst a w) (Memory.wf_write h a w) fun b => ?_
  rw [Memory.read_write hfirst, Memory.read_write h, Memory.read_write h]
  split <;> rfl

/-- Of two SET_PIXELs of one pixel, dbuf shows the last alone. -/
theorem setPixelBody_setPixelBody_dbuf {s : State} (h : s.Inv) (first last : Bool) (x y : Nat) :
    (setPixelBody last x y (setPixelBody first x y s)).dbuf = (setPixelBody last x y s).dbuf := by
  have hbyte : setBit ((setPixelBody first x y s).bufferByte (byteIndex s.cfg.dims x y)) (bitIndex y) last
      = setBit (s.bufferByte (byteIndex s.cfg.dims x y)) (bitIndex y) last := by
    rw [bufferByte_setPixelBody h, if_pos rfl, setBit_setBit _ (bitIndex_lt y)]
  obtain ⟨-, -, hwf, -, -⟩ := h
  exact (congrArg _ hbyte).trans (Memory.write_write hwf ..)

/-- Settles O25: every SET_PIXEL of a sequence completes, and each overwrites the one before it. -/
theorem setPixelIsIdempotent : Obligations.SetPixelIsIdempotent := by
  intro s on x y hinv hx0 hxW hy0 hyH
  have hin := (pixelInRange_iff ..).mpr ⟨hx0, hxW, hy0, hyH⟩
  have hinvFirst := inv_setPixelBody hinv true hin
  refine ⟨⟨_, _, _, exec_setPixel_of_inRange true hin, exec_setPixel_of_inRange false hin,
    exec_setPixel_of_inRange true hin, ?_⟩, _, _, exec_setPixel_of_inRange on hin, exec_setPixel_of_inRange on hin,
    setPixelBody_setPixelBody_dbuf hinv on on _ _⟩
  exact (setPixelBody_setPixelBody_dbuf hinvFirst false true _ _).trans
    (setPixelBody_setPixelBody_dbuf hinv true true _ _)

end Sys2Proof.Machine
end

section
/-! What SyncBody leaves in dbuf and sends, from every state (spec/40_framebuffer.md R117, R120, R121). -/

namespace Sys2Proof.Machine

/-- Other hosts' frames leave dbuf as it was packed. -/
theorem bufferByte_syncBody (s : State) (i : Nat) : (syncBody s).bufferByte i =
    if i < bufferSize s.cfg.dims then packByte s.cfg.dims s.pixel i else s.bufferByte i := by
  rw [← bufferByte_packBuffer, State.bufferByte, syncBody_dbuf, State.bufferByte]

/-- The pixel-to-buffer map finds the raster's bit in the packed raster (R46, R48). -/
theorem getLsbD_packByte_byteIndex {d : Dims} (p : Nat → Nat → Bool) {x : Nat} (hx : x < width d) (y : Nat) :
    (packByte d p (byteIndex d x y)).getLsbD (bitIndex y) = p x y := by
  rw [getLsbD_packByte _ _ _ _ (bitIndex_lt y), byteIndex_eq_pixelKey, pixelKey_mod hx, pixelKey_div hx,
    bitIndex, Nat.div_add_mod']

/-- Settles O27: a byte of the buffer is the packed raster's, any other is as before, and no other field is written. -/
theorem syncPacksTheRaster : Obligations.SyncPacksTheRaster := by
  intro s
  refine ⟨fun x y hx hy => ?_, fun i hi => ?_, syncBody_raster s, syncBody_storedContrast s, syncBody_ghostScroll s,
    syncBody_ghostBegun s, ?_⟩
  · have hbyte := (bufferByte_syncBody s _).trans (if_pos (byteIndex_lt_bufferSize hx hy))
    exact (congrArg (BitVec.getLsbD · (bitIndex y)) hbyte).trans (getLsbD_packByte_byteIndex s.pixel hx y)
  · rw [bufferByte_syncBody, if_neg (Nat.not_lt.mpr hi)]
  · rw [← syncBody_host s]
    rfl

/-- The data frames that a run of events adds to the trace are those of the events. -/
theorem dataFramesOf_drop_emitAll (es : List Event) (s : State) :
    dataFramesOf ((emitAll es s).out.drop s.out.length) = dataFramesOf es := by
  obtain ⟨added, hadded⟩ := emitAll_out_grows es s
  have hframes := dataFramesOf_emitAll es s
  rw [← hadded, dataFramesOf_append] at hframes
  rw [← hadded, List.drop_left]
  exact List.append_cancel_left hframes

/-- SyncBody adds one data frame, whatever other hosts send (R118). -/
theorem dataFramesOf_drop_syncBody (s : State) :
    dataFramesOf ((syncBody s).out.drop s.out.length) = [(packBuffer s).bufferBytes] :=
  dataFramesOf_drop_emitAll (syncFrames (packBuffer s)) (packBuffer s)

/-- Settles O29: CLEAR sends nothing, and SyncBody of the cleared raster packs zero bytes and sends them. -/
theorem clearThenSyncSendsZeros : Obligations.ClearThenSyncSendsZeros := by
  intro s
  rw [expected_geometry_eq]
  refine ⟨(clearBody s).addResult s.host .ok, _, rfl, rfl, fun i hi => ?_, ?_⟩
  · have hbyte := bufferByte_syncBody ((clearBody s).addResult s.host .ok) i
    exact (hbyte.trans (if_pos hi)).trans (packByte_clearBody s hi)
  · have hframe := dataFramesOf_drop_syncBody ((clearBody s).addResult s.host .ok)
    exact hframe.trans (congrArg ([·]) (bufferBytes_packBuffer_clearBody s))

end Sys2Proof.Machine
end

section
/-! Pixel classification (spec/40_framebuffer.md R111). -/

namespace Sys2Proof.Machine

theorem classify_iff (p : Rgb) : classify p = true ↔ 192 < p.r.toNat + p.g.toNat + p.b.toNat := decide_eq_true_iff

/-- Settles O31: `classify` decides the comparison of the exact sum. -/
theorem classifyIsTheThreshold : Obligations.ClassifyIsTheThreshold := fun r g b => classify_iff ⟨r, g, b⟩

end Sys2Proof.Machine
end

section
/-! What a rectangle draws: one bit for every pixel of the display, and one answer for each outcome of the checks
(spec/41_compositing.md R131 to R141). -/

namespace Sys2Proof.Machine

/-! ## The composed bit (R131) -/

@[simp] theorem compose_full (r b : Bool) : compose .full r b = b := rfl
@[simp] theorem compose_onPixels (r b : Bool) : compose .onPixels r b = (r || b) := rfl
@[simp] theorem compose_offPixels (r b : Bool) : compose .offPixels r b = (r && b) := rfl
@[simp] theorem compose_none (r b : Bool) : compose .none r b = r := rfl

/-- Settles O32: the four overlays evaluated at the four pairs of bits. -/
theorem composeFollowsTheTruthTable : Obligations.ComposeFollowsTheTruthTable := by
  simp [Obligations.ComposeFollowsTheTruthTable]

/-! ## What each check compares -/

section
variable {x0 y0 x1 y1 : Int}

theorem rectWellFormed_iff : rectWellFormed x0 y0 x1 y1 = true ↔ x0 < x1 ∧ y0 < y1 := by
  simp [rectWellFormed]

theorem rectOversized_iff :
    rectOversized x0 y0 x1 y1 = true ↔ 2147483647 < x1 - x0 ∨ 2147483647 < y1 - y0 := by
  rw [rectOversized, Bool.or_eq_true, decide_eq_true_iff, decide_eq_true_iff, maxI32]

theorem insideRect_iff {x y : Int} :
    insideRect x0 y0 x1 y1 x y = true ↔ x0 ≤ x ∧ x < x1 ∧ y0 ≤ y ∧ y < y1 := by
  simp [insideRect, and_assoc]

/-! ## The answers of a rectangle (R132, R133, R135) -/

theorem drawRect_of_malformed (h : x1 ≤ x0 ∨ y1 ≤ y0) (ov : Overlay) (img : Image) (s : State) :
    drawRect ov img x0 y0 x1 y1 s = .next (Expected.failed (.rect x0 y0 x1 y1) s) := by
  have hmalformed : ¬rectWellFormed x0 y0 x1 y1 = true := fun hwf => by
    obtain ⟨hx, hy⟩ := rectWellFormed_iff.mp hwf
    omega
  exact if_neg hmalformed

theorem drawRect_none (hx : x0 < x1) (hy : y0 < y1) (img : Image) (s : State) :
    drawRect .none img x0 y0 x1 y1 s = .next (s.addResult s.host .ok) := by
  rw [drawRect, if_pos (rectWellFormed_iff.mpr ⟨hx, hy⟩), if_pos rfl, complete]

theorem drawRect_of_oversized {ov : Overlay} (hx : x0 < x1) (hy : y0 < y1) (hov : ov ≠ .none)
    (hbig : 2147483647 < x1 - x0 ∨ 2147483647 < y1 - y0) (img : Image) (s : State) :
    drawRect ov img x0 y0 x1 y1 s = .refused .rectTooLarge := by
  rw [drawRect, if_pos (rectWellFormed_iff.mpr ⟨hx, hy⟩), if_neg hov, if_pos (rectOversized_iff.mpr hbig)]

/-- A rectangle of admissible size completes under every overlay and writes the raster alone. -/
theorem drawRect_writes_raster (hx : x0 < x1) (hy : y0 < y1)
    (hfits : ¬(2147483647 < x1 - x0 ∨ 2147483647 < y1 - y0)) (ov : Overlay) (img : Image) (s : State) :
    ∃ m, drawRect ov img x0 y0 x1 y1 s = .next ((s.withRaster m).addResult s.host .ok) := by
  by_cases hov : ov = .none
  · subst hov
    exact ⟨s.raster, drawRect_none hx hy img s⟩
  · refine ⟨(compositeBody ov img x0 y0 x1 y1 s).raster, ?_⟩
    rw [drawRect, if_pos (rectWellFormed_iff.mpr ⟨hx, hy⟩), if_neg hov, if_neg (mt rectOversized_iff.mp hfits)]
    rfl

/-! ## The bits of a rectangle (R134, R135) -/

/-- The bit at pixel (x, y) after a rectangle is drawn over the bit `old`. -/
def drawnBit (ov : Overlay) (img : Image) (x0 y0 x1 y1 : Int) (x y : Nat) (old : Bool) : Bool :=
  if x0 ≤ x ∧ x < x1 ∧ y0 ≤ y ∧ y < y1 then
    compose ov old (classify (resampleAt img (x1 - x0).toNat (y1 - y0).toNat (x - x0).toNat (y - y0).toNat))
  else old

theorem drawnBit_outside {x y : Nat} (h : ¬(x0 ≤ x ∧ x < x1 ∧ y0 ≤ y ∧ y < y1)) (ov : Overlay) (img : Image)
    (old : Bool) : drawnBit ov img x0 y0 x1 y1 x y old = old := if_neg h

theorem drawnBit_none (img : Image) (x y : Nat) (old : Bool) : drawnBit .none img x0 y0 x1 y1 x y old = old := by
  rw [drawnBit, compose_none, ite_self]

theorem pixel_compositeBody_eq_drawnBit (ov : Overlay) (img : Image) (s : State) {x y : Nat}
    (hx : x < width s.cfg.dims) (hy : y < height s.cfg.dims) :
    (compositeBody ov img x0 y0 x1 y1 s).pixel x y = drawnBit ov img x0 y0 x1 y1 x y (s.pixel x y) := by
  simp only [pixel_compositeBody ov img x0 y0 x1 y1 s hx hy, insideRect_iff, drawnBit]

/-- Whatever the checks said: a rectangle that answers a next state leaves `drawnBit` at every pixel of the display. A
malformed rectangle holds no pixel, so its error fits the same equation. -/
theorem pixel_of_drawRect {ov : Overlay} {img : Image} {s t : State}
    (h : drawRect ov img x0 y0 x1 y1 s = .next t) {x y : Nat} (hx : x < width s.cfg.dims) (hy : y < height s.cfg.dims) :
    t.pixel x y = drawnBit ov img x0 y0 x1 y1 x y (s.pixel x y) := by
  obtain ⟨hmalformed, he⟩ | ⟨-, ⟨rfl, he⟩ | ⟨-, -, he⟩ | ⟨-, -, he⟩⟩ := drawRect_cases ov img x0 y0 x1 y1 s <;>
    rw [he] at h
  · have houtside : ¬(x0 ≤ (x : Int) ∧ x < x1 ∧ y0 ≤ (y : Int) ∧ y < y1) := fun hin => by
      have hwf : rectWellFormed x0 y0 x1 y1 = true := rectWellFormed_iff.mpr (by omega)
      exact Bool.false_ne_true (hmalformed.symm.trans hwf)
    rw [raiseError_next h, drawnBit_outside houtside]
    rfl
  · rw [complete_next h, drawnBit_none]
    rfl
  · cases h
  · rw [complete_next h]
    exact pixel_compositeBody_eq_drawnBit ov img s hx hy

theorem drawnBit_onPixels_of_on (img : Image) (x y : Nat) : drawnBit .onPixels img x0 y0 x1 y1 x y true = true := by
  rw [drawnBit, compose_onPixels, Bool.true_or, ite_self]

theorem drawnBit_offPixels_of_off (img : Image) (x y : Nat) :
    drawnBit .offPixels img x0 y0 x1 y1 x y false = false := by
  rw [drawnBit, compose_offPixels, Bool.false_and, ite_self]

/-- At a pixel that at most one of two rectangles holds, one of the two draws keeps the old bit. -/
theorem drawnBit_comm {u0 v0 u1 v1 : Int} {x y : Nat}
    (h : ¬((x0 ≤ x ∧ x < x1 ∧ y0 ≤ y ∧ y < y1) ∧ (u0 ≤ x ∧ x < u1 ∧ v0 ≤ y ∧ y < v1)))
    (ova ovb : Overlay) (ia ib : Image) (old : Bool) :
    drawnBit ovb ib u0 v0 u1 v1 x y (drawnBit ova ia x0 y0 x1 y1 x y old) =
      drawnBit ova ia x0 y0 x1 y1 x y (drawnBit ovb ib u0 v0 u1 v1 x y old) := by
  by_cases ha : x0 ≤ (x : Int) ∧ x < x1 ∧ y0 ≤ (y : Int) ∧ y < y1
  · have hb : ¬(u0 ≤ (x : Int) ∧ x < u1 ∧ v0 ≤ (y : Int) ∧ y < v1) := by omega
    rw [drawnBit_outside hb, drawnBit_outside hb]
  · rw [drawnBit_outside ha, drawnBit_outside ha]

end

/-! ## DRAW_IMAGE -/

/-- DRAW_IMAGE is a rectangle of its four signed coordinates (R135). -/
theorem pixel_of_exec_drawImage {ov : Overlay} {img : Image} {x0 y0 x1 y1 : I32} {s t : State}
    (h : exec (.drawImage ov img x0 y0 x1 y1) s = .next t) {x y : Nat} (hx : x < width s.cfg.dims)
    (hy : y < height s.cfg.dims) :
    t.pixel x y = drawnBit ov img x0.toInt y0.toInt x1.toInt y1.toInt x y (s.pixel x y) := pixel_of_drawRect h hx hy

/-- Settles O33: an admissible rectangle writes the raster alone, and `drawnBit` is the bit at every pixel. -/
theorem drawImageCompositesTheClippedRect : Obligations.DrawImageCompositesTheClippedRect := by
  intro s ov img x0 y0 x1 y1 hx hy
  refine ⟨drawRect_none hx hy img s, fun hw hh => ?_⟩
  obtain ⟨m, hdraw⟩ := drawRect_writes_raster hx hy (by omega) ov img s
  exact ⟨m, hdraw, fun x y hxW hyH => pixel_of_drawRect hdraw hxW hyH⟩

/-- Settles O34: the answers of a malformed and of an oversized rectangle. -/
theorem drawImageChecksTheRectFirst : Obligations.DrawImageChecksTheRectFirst := fun s ov img _ _ _ _ =>
  ⟨fun hmalformed => drawRect_of_malformed hmalformed ov img s,
    fun hx hy hov hbig => drawRect_of_oversized hx hy hov hbig img s⟩

/-- Settles O36: P-UNIFORM makes the resampled pixel the image's one value, and `compose` of its bit is the table. -/
theorem uniformSourcesObeyTheOverlay : Obligations.UniformSourcesObeyTheOverlay := by
  intro s img p x0 y0 x1 y1 hwf huniform hx hy hw hh ov hov
  obtain ⟨m, hdraw⟩ := drawRect_writes_raster hx hy (by omega) ov img s
  refine ⟨_, hdraw, fun x y hxW hyH => ?_⟩
  rw [pixel_of_drawRect hdraw hxW hyH, drawnBit, uniformImageResamplesToItself img p hwf huniform]
  congr 1
  cases ov with
  | full => cases classify p <;> simp
  | onPixels => cases classify p <;> simp
  | offPixels => cases classify p <;> simp
  | none => simp at hov

/-- Settles O37: whatever the checks said, each pixel is `drawnBit` of its old bit, which the overlay lets change in one
direction alone. -/
theorem overlayIsMonotone : Obligations.OverlayIsMonotone := by
  intro s t img x0 y0 x1 y1 x y hx hy
  refine ⟨fun h hon => ?_, fun h hoff => ?_⟩
  · rw [pixel_of_exec_drawImage h hx hy, hon, drawnBit_onPixels_of_on]
  · rw [pixel_of_exec_drawImage h hx hy, hoff, drawnBit_offPixels_of_off]

/-- No instruction writes CFG (R23). -/
theorem exec_keeps_cfg {i : Instr} {s t : State} (h : exec i s = .next t) : t.cfg = s.cfg := by
  obtain ⟨-, -, hcfg⟩ := exec_extends_out_results h
  exact hcfg

/-- R28: an address of the raster is the address of a pixel, and the canonical form leaves no other freedom. -/
theorem raster_ext {s t : State} (hs : s.Inv) (ht : t.Inv) (hcfg : t.cfg = s.cfg)
    (h : ∀ x y, x < width s.cfg.dims → y < height s.cfg.dims → s.pixel x y = t.pixel x y) : s.raster = t.raster := by
  obtain ⟨hwfs, hbelows, -⟩ := hs
  obtain ⟨hwft, hbelowt, -⟩ := ht
  rw [hcfg] at hbelowt
  refine Memory.ext_of_wf hwfs hwft fun a => ?_
  by_cases ha : a < width s.cfg.dims * height s.cfg.dims
  · have hpixel := h _ _ (Nat.mod_lt a (width_pos s.cfg.dims)) (Nat.div_lt_of_lt_mul ha)
    simpa only [State.pixel, pixelKey, hcfg, Nat.div_add_mod'] using hpixel
  · rw [Memory.read_of_below hbelows (Nat.not_lt.mp ha), Memory.read_of_below hbelowt (Nat.not_lt.mp ha)]

/-- A pixel of the display after two DRAW_IMAGEs. -/
theorem pixel_of_two_drawImages {s t u : State} {ova ovb : Overlay} {ia ib : Image}
    {ax0 ay0 ax1 ay1 bx0 by0 bx1 by1 : I32} (ha : exec (.drawImage ova ia ax0 ay0 ax1 ay1) s = .next t)
    (hb : exec (.drawImage ovb ib bx0 by0 bx1 by1) t = .next u) {x y : Nat} (hx : x < width s.cfg.dims)
    (hy : y < height s.cfg.dims) :
    u.pixel x y = drawnBit ovb ib bx0.toInt by0.toInt bx1.toInt by1.toInt x y
      (drawnBit ova ia ax0.toInt ay0.toInt ax1.toInt ay1.toInt x y (s.pixel x y)) := by
  have hcfg := exec_keeps_cfg ha
  rw [pixel_of_exec_drawImage hb (hcfg ▸ hx) (hcfg ▸ hy), pixel_of_exec_drawImage ha hx hy]

/-- Settles O38: both orders keep the invariant and leave the same pixels, so they leave the same raster. -/
theorem disjointDrawsCommute : Obligations.DisjointDrawsCommute := by
  intro s ta tab tb tba ova ovb ia ib ax0 ay0 ax1 ay1 bx0 by0 bx1 by1 hinv hdisjoint ha hab hb hba
  have hcfgab : tab.cfg = s.cfg := (exec_keeps_cfg hab).trans (exec_keeps_cfg ha)
  have hcfgba : tba.cfg = s.cfg := (exec_keeps_cfg hba).trans (exec_keeps_cfg hb)
  refine raster_ext (exec_keeps_inv (exec_keeps_inv hinv ha) hab) (exec_keeps_inv (exec_keeps_inv hinv hb) hba)
    (hcfgba.trans hcfgab.symm) fun x y hx hy => ?_
  rw [hcfgab] at hx hy
  rw [pixel_of_two_drawImages ha hab hx hy, pixel_of_two_drawImages hb hba hx hy]
  exact drawnBit_comm (hdisjoint x y hx hy) ova ovb ia ib _

/-! ## DRAW_TEXT (R140) -/

theorem textOversized_iff {r : Rasterised} {x0 y0 : Int} :
    textOversized r x0 y0 = true ↔ 2147483647 < x0 + r.width ∨ 2147483647 < y0 + r.height := by
  rw [textOversized, Bool.or_eq_true, decide_eq_true_iff, decide_eq_true_iff, maxI32, textEnd]

/-- A text whose end fits is the rectangle of its measured box. -/
theorem drawRasterised_of_end_fits {x0 y0 : I32} {mw mh : Nat}
    (h : ¬(2147483647 < x0.toInt + mw ∨ 2147483647 < y0.toInt + mh)) (ov : Overlay) (img : Image) (s : State) :
    drawRasterised ov ⟨img, mw, mh⟩ x0 y0 s =
      drawRect ov img x0.toInt y0.toInt (x0.toInt + mw) (y0.toInt + mh) s :=
  if_neg (mt textOversized_iff.mp h)

/-- The image that `rasterize` answers has the measured size (R13). -/
theorem length_pixels_tabulate (w h : Nat) (f : Nat → Nat → Rgb) : (tabulate w h f).pixels.length = w * h := by
  rw [tabulate, List.length_map, List.length_range]

/-- Settles O39: DRAW_TEXT draws the rasterised text, which answers as the rectangle of its measured box unless an end
coordinate does not fit. -/
theorem drawTextCompositesTheRasterisedText : Obligations.DrawTextCompositesTheRasterisedText := by
  intro s ov x0 y0
  refine ⟨fun text font => ⟨rfl, rfl, rfl, length_pixels_tabulate ..⟩, fun img mw mh => ?_⟩
  by_cases hend : 2147483647 < x0.toInt + mw ∨ 2147483647 < y0.toInt + mh
  · rw [if_pos hend]
    exact if_pos (textOversized_iff.mpr hend)
  rw [if_neg hend, drawRasterised_of_end_fits hend]
  by_cases hempty : mw = 0 ∨ mh = 0
  · rw [if_pos hempty]
    exact drawRect_of_malformed (by omega) ov img s
  rw [if_neg hempty]
  have hx : x0.toInt < x0.toInt + mw := by omega
  have hy : y0.toInt < y0.toInt + mh := by omega
  split_ifs with hnone hbig
  · exact hnone ▸ drawRect_none hx hy img s
  · exact drawRect_of_oversized hx hy hnone (by omega) img s
  · obtain ⟨m, hdraw⟩ := drawRect_writes_raster hx hy (by omega) ov img s
    refine ⟨m, hdraw, fun x y hxW hyH => (pixel_of_drawRect hdraw hxW hyH).trans ?_⟩
    simp only [drawnBit, add_sub_cancel_left, Int.toNat_natCast]

end Sys2Proof.Machine
end

section
/-! The 26 commands as instructions: each leaves the bytes of its row with the encoder and changes nothing else
(spec/42_command_encoder.md R150 to R175; spec/30_encoding.md R82). -/

namespace Sys2Proof

/-! ### The rows whose byte depends on an operand (R155, R158, R159) -/

theorem encSetStartLine_eq_add (l : BitVec 6) : encSetStartLine l = [BitVec.ofNat 8 (0x40 + l.toNat)] := by
  revert l; decide

theorem encSetSegmentRemap_eq_ite (r : BitVec 1) : encSetSegmentRemap r = [if r = 1 then 0xA1 else 0xA0] := by
  revert r; decide

theorem encSetComScanDirection_eq_ite (d : BitVec 1) :
    encSetComScanDirection d = [if d = 1 then 0xC8 else 0xC0] := by
  revert d; decide

namespace Machine

theorem runCommand_eq_withEncoded {bs bs' : List Byte} (h : bs = bs') (s : State) :
    runCommand bs s = .next (s.withEncoded bs') := by
  rw [h, runCommand]

/-- Settles O53: row by row; the start line, segment remap and scan direction are the rows that compute a byte. -/
theorem configurationCommandsEncodeTheirBytes : Obligations.ConfigurationCommandsEncodeTheirBytes := by
  intro s v l en b
  simp only [List.forall_mem_cons]
  refine ⟨rfl, rfl, rfl, rfl, rfl, ?startLine, rfl, rfl, ?segmentRemap, ?comScanDirection, List.forall_mem_nil _⟩
  case startLine => exact runCommand_eq_withEncoded (encSetStartLine_eq_add l) s
  case segmentRemap => exact runCommand_eq_withEncoded (encSetSegmentRemap_eq_ite b) s
  case comScanDirection => exact runCommand_eq_withEncoded (encSetComScanDirection_eq_ite b) s

/-- Settles O54: each of the nine rows is its opcode followed by its operands. -/
theorem panelAndAddressCommandsEncodeTheirBytes : Obligations.PanelAndAddressCommandsEncodeTheirBytes := by
  intro s v w
  simp only [List.forall_mem_cons]
  exact ⟨rfl, rfl, rfl, rfl, rfl, rfl, rfl, rfl, rfl, List.forall_mem_nil _⟩

/-- Settles O55: each of the seven rows is its opcode followed by its operands and dummy bytes. -/
theorem scrollCommandsEncodeTheirBytes : Obligations.ScrollCommandsEncodeTheirBytes := by
  intro s sp ep vo w f
  simp only [List.forall_mem_cons]
  exact ⟨rfl, rfl, rfl, rfl, rfl, rfl, rfl, List.forall_mem_nil _⟩

end Machine
end Sys2Proof
end

section
/-! The operations that only send frames, in a quiet state: DIM and INVERT (spec/44_contrast_invert.md R224, R225). -/

namespace Sys2Proof.Machine

theorem complete_emit_quiet {s : State} (h : s.Quiet) (e : Event) :
    complete (emit e s) = .next (s.emittedOk [e]) := by
  rw [emit_eq_emitted h, complete_emitted]

/-- Settles O44: each is one emission, and in a quiet state an emission leaves its event and report alone. -/
theorem dimAndInvertSendOneFrame : Obligations.DimAndInvertSendOneFrame := fun _ hquiet =>
  ⟨complete_emit_quiet hquiet _, complete_emit_quiet hquiet _, complete_emit_quiet hquiet _,
    complete_emit_quiet hquiet _⟩

end Sys2Proof.Machine
end

section
/-! The command frames of a trace are those of the events emitted (spec/42_command_encoder.md R179). -/

namespace Sys2Proof.Machine

theorem commandsOf_append (es es' : List Event) : commandsOf (es ++ es') = commandsOf es ++ commandsOf es' :=
  List.filterMap_append

/-- Pin, wait and report events are no commands. -/
theorem commandsOf_framesOf (es : List Event) : commandsOf (framesOf es) = commandsOf es := by
  rw [commandsOf, framesOf, List.filterMap_filter]
  refine List.filterMap_congr fun e _ => ?_
  cases e <;> rfl

/-- The reports between events are no commands. -/
theorem commandsOf_traceFrom (n : Nat) (es : List Event) : commandsOf (traceFrom n es) = commandsOf es := by
  rw [← commandsOf_framesOf, framesOf_traceFrom, commandsOf_framesOf]

theorem commandsOf_drop_emittedOk (s : State) (es : List Event) :
    commandsOf ((s.emittedOk es).out.drop s.out.length) = commandsOf es := by
  have hout : (s.emittedOk es).out = s.out ++ traceFrom s.draws es := rfl
  rw [hout, List.drop_left, commandsOf_traceFrom]

end Sys2Proof.Machine
end

section
/-! BEGIN in a quiet state, and its command trace (spec/42_command_encoder.md R177 to R179). -/

namespace Sys2Proof.Machine

theorem expected_blank_eq (s : State) : Expected.blank s = packBuffer (clearBody s) := rfl

theorem withContrast_emitted (s : State) (es : List Event) (c : Byte) :
    (s.emitted es).withContrast c = (s.withContrast c).emitted es := rfl

/-- The init frames around the write of storedContrast are one run of events (R177). -/
theorem initSequence_quiet {s : State} (h : s.Quiet) :
    initSequence s = (s.withContrast (initContrast s.cfg.vcc)).emitted (Expected.init s.cfg) := by
  have hhead : emitAll (initFramesHead s.cfg) (emitAll (pinEvents s.cfg) s) =
      s.emitted (pinEvents s.cfg ++ initFramesHead s.cfg) := by
    rw [emitAll_eq_emitted h, emitAll_eq_emitted (quiet_emitted h _), emitted_append]
  have hquiet : ((s.withContrast (initContrast s.cfg.vcc)).emitted (pinEvents s.cfg ++ initFramesHead s.cfg)).Quiet :=
    quiet_congr rfl rfl h
  rw [initSequence, hhead, withContrast_emitted, emitAll_eq_emitted hquiet, emitted_append, expected_init_eq]

/-- SyncBody after CLEAR's body and events: the zero buffer is sent after them (R120). -/
theorem syncBody_clearBody_emitted {s : State} (h : s.Quiet) (es : List Event) :
    syncBody (clearBody (s.emitted es)) = (Expected.blank s).emitted (es ++ Expected.blankSync s.cfg.dims) := by
  have hquiet : (clearBody s).Quiet := quiet_congr rfl rfl h
  have hsync := syncBody_emitted hquiet es
  rw [syncFrames_eq_expected, expected_sync_clearBody, ← expected_blank_eq] at hsync
  exact hsync

theorem beginBody_quiet {s : State} (h : s.Quiet) :
    beginBody s = (((Expected.blank s).withContrast (initContrast s.cfg.vcc)).withBegun true).emitted
      (Expected.init s.cfg ++ Expected.blankSync s.cfg.dims) := by
  have hquiet : (s.withContrast (initContrast s.cfg.vcc)).Quiet := quiet_congr rfl rfl h
  rw [beginBody, initSequence_quiet h, syncBody_clearBody_emitted hquiet]
  rfl

theorem exec_begin_quiet {s : State} (h : s.Quiet) :
    exec .begin s = .next ((((Expected.blank s).withContrast (initContrast s.cfg.vcc)).withBegun true).emittedOk
      (Expected.init s.cfg ++ Expected.blankSync s.cfg.dims)) := by
  rw [← complete_emitted, ← beginBody_quiet h]
  exact execBegin_eq_complete s

/-- Settles O41: `exec_begin_quiet`, with the initial contrast written out. -/
theorem beginSendsTheInitSequence : Obligations.BeginSendsTheInitSequence := fun _ hquiet => exec_begin_quiet hquiet

/-! ### The command trace -/

/-- The reset pulse is no command, and no init frame reads the bus or the pin (R176, R177). -/
theorem commandsOf_expected_init_congr {c c' : Cfg} (hdims : c'.dims = c.dims) (hvcc : c'.vcc = c.vcc) :
    commandsOf (Expected.init c') = commandsOf (Expected.init c) := by
  have hpulse (c : Cfg) : commandsOf (pinEvents c) = [] := by
    rw [pinEvents]
    split <;> rfl
  have hhead : initFramesHead c' = initFramesHead c := by rw [initFramesHead, hdims, hvcc, initFramesHead]
  have htail : initFramesTail c' = initFramesTail c := by rw [initFramesTail, hvcc, initFramesTail]
  simp only [expected_init_eq, commandsOf_append, hpulse, hhead, htail]

theorem commandsOf_drop_begin {s t : State} (hquiet : s.Quiet) (h : exec .begin s = .next t) :
    commandsOf (t.out.drop s.out.length) =
      commandsOf (Expected.init s.cfg) ++ commandsOf (Expected.blankSync s.cfg.dims) := by
  rw [← commandsOf_append, ← Host.Outcome.next.inj ((exec_begin_quiet hquiet).symm.trans h)]
  exact commandsOf_drop_emittedOk (((Expected.blank s).withContrast (initContrast s.cfg.vcc)).withBegun true) _

/-- Settles O42: both traces are the init frames and the window of SyncBody, which dims and vcc give. -/
theorem initTraceDependsOnDimsAndVccOnly : Obligations.InitTraceDependsOnDimsAndVccOnly := by
  intro s s' t t' hquiet hquiet' hdims hvcc h h'
  rw [commandsOf_drop_begin hquiet h, commandsOf_drop_begin hquiet' h', commandsOf_expected_init_congr hdims hvcc,
    hdims]

end Sys2Proof.Machine
end

section
/-! `ghost.scroll` after every instruction (spec/43_scroll.md R208). -/

namespace Sys2Proof.Machine

@[simp] theorem beginBody_ghostScroll (s : State) : (beginBody s).ghostScroll = s.ghostScroll := by
  simp [beginBody, initSequence]

@[simp] theorem rectBody_ghostScroll (ov : Overlay) (img : Image) (x0 y0 x1 y1 : Int) (s : State) :
    (rectBody ov img x0 y0 x1 y1 s).ghostScroll = s.ghostScroll := by unfold rectBody; split <;> rfl

@[simp] theorem setContrastBody_ghostScroll (q : Rat) (s : State) :
    (setContrastBody q s).ghostScroll = s.ghostScroll := by simp [setContrastBody]

/-- STOP begins with STOP_SCROLL's body, and nothing after it starts a scroll (R230). -/
@[simp] theorem stopBody_ghostScroll (s : State) : (stopBody s).ghostScroll = .inactive := by
  simp [stopBody, stopScrollBody, dimBody, invertBody]

theorem opBody_ghostScroll (i : Instr) (s : State) : (opBody i s).ghostScroll = modeAfter s.ghostScroll i := by
  cases i with
  | begin => exact beginBody_ghostScroll s
  | sync => exact syncBody_ghostScroll s
  | drawImage | drawText => exact rectBody_ghostScroll ..
  | setContrast q => exact setContrastBody_ghostScroll q s
  | dim | invert => exact emit_ghostScroll _ s
  | scrollHorizontal | scrollVertical | scrollDiagonal => exact startScroll_ghostScroll ..
  | stop => exact stopBody_ghostScroll s
  | _ => rfl

theorem modeAfter_of_command {i : Instr} (h : isCommand i = true) (m : ScrollMode) : modeAfter m i = m := by
  cases i with
  | scrollHorizontal | scrollVertical | scrollDiagonal | stopScroll | stop => cases h
  | _ => rfl

theorem append_ok_ne_append_error (l l' : List Completed) (h h' : HostId) (e : OpError) :
    l ++ [⟨h, .ok⟩] ≠ l' ++ [⟨h', .error e⟩] := by
  intro heq
  cases List.append_inj_right' heq rfl

/-- Settles O17: a command and an error leave `ghost.scroll`; an operation whose checks pass ends with `Ok`, and its
body leaves the mode of the table. -/
theorem scrollModeFollowsTheTable : Obligations.ScrollModeFollowsTheTable := by
  intro i s t h
  obtain ⟨hcommand, bs, rfl⟩ | ⟨-, e, -, rfl⟩ | ⟨-, -, rfl⟩ := exec_next_cases h
  · exact ⟨fun _ => rfl, fun _ => (modeAfter_of_command hcommand _).symm⟩
  · exact ⟨fun _ => rfl, fun hok => absurd ⟨e, rfl⟩ hok⟩
  · exact ⟨fun ⟨_, herror⟩ => absurd herror (append_ok_ne_append_error _ _ _ _ _), fun _ => opBody_ghostScroll i s⟩

end Sys2Proof.Machine
end

section
/-! The scroll starts in full: the checks in the order of their rules, then the prologue, the setup frames and the
activation (spec/43_scroll.md R200 to R205). -/

namespace Sys2Proof.Machine

/-! ### The checks (R202, R204) -/

theorem pageRangeOk_iff {d : Dims} {sp ep : Int} :
    pageRangeOk d sp ep = true ↔ 0 ≤ sp ∧ sp ≤ ep ∧ ep < pages d := by
  simp [pageRangeOk, and_assoc]

theorem vOffsetOk_iff {d : Dims} {voff : Int} : vOffsetOk d voff = true ↔ ¬(voff < 0 ∨ width d ≤ voff) := by
  simp [vOffsetOk]

/-- SCROLL_DIAGONAL rejects a page range only where the open parameter has it looked at (R204, D15). -/
theorem diagonal_pageCheck_iff {d : Dims} {sp ep : Int} :
    (pageRangeOk d sp ep || !Config.diagChecksPageRange) = true ↔
      ¬(Config.diagChecksPageRange = true ∧ ¬(0 ≤ sp ∧ sp ≤ ep ∧ ep < pages d)) := by
  rw [Bool.or_eq_true, pageRangeOk_iff, Bool.not_eq_true', ← Bool.not_eq_true, not_and_not_right, or_comm,
    imp_iff_not_or]

/-! ### A start in a quiet state -/

/-- The frames of a scroll start, with dbuf packed and the mode noted (R200). -/
theorem complete_startScroll_quiet {s : State} (h : s.Quiet) (setup : List Event) (m : ScrollMode) :
    complete (startScroll setup m s) = .next (((Expected.packed s).withScroll m).emittedOk
      ([.cmd [0x2E]] ++ Expected.sync s ++ (setup ++ [.cmd [0x2F]]))) := by
  rw [startScroll_quiet h, complete_emitted, syncFrames_eq_expected, expected_packed_eq]
  rfl

/-- Settles O46: the page range decides between the start and the error. -/
theorem scrollHorizontalStartsOrFails : Obligations.ScrollHorizontalStartsOrFails := by
  intro s hdir freq sp ep
  rw [expected_geometry_eq]
  split
  case isTrue hrange =>
    intro hquiet
    have hstart := complete_startScroll_quiet hquiet (horizontalSetup hdir freq sp ep) .horizontal
    cases hdir <;> exact (if_pos (pageRangeOk_iff.mpr hrange)).trans hstart
  case isFalse hrange => exact if_neg (mt pageRangeOk_iff.mp hrange)

/-- Settles O47: the offset is checked, then the page range if the open parameter says so, and then the scroll
starts. -/
theorem scrollDiagonalStartsOrFails : Obligations.ScrollDiagonalStartsOrFails := by
  intro s hdir freq sp ep voff fixed rows
  rw [expected_geometry_eq]
  split
  case isTrue hvoff => exact if_neg fun hok => vOffsetOk_iff.mp hok hvoff
  case isFalse hvoff =>
    have hoffset := vOffsetOk_iff.mpr hvoff
    split
    case isTrue hpages => exact (if_pos hoffset).trans (if_neg fun hok => diagonal_pageCheck_iff.mp hok hpages)
    case isFalse hpages =>
      intro hquiet
      have hstart := complete_startScroll_quiet hquiet
        (diagonalSetup hdir freq (low8 sp) (low8 ep) (low8 voff) (low8 fixed) (low8 rows)) .diagonal
      cases hdir <;> exact ((if_pos hoffset).trans (if_pos (diagonal_pageCheck_iff.mpr hpages))).trans hstart

/-- Settles O48: SCROLL_VERTICAL has no check, and its setup frames are the table of R205. -/
theorem scrollVerticalScrollsTheWholeDisplay : Obligations.ScrollVerticalScrollsTheWholeDisplay := by
  intro s vdir freq hquiet
  rw [expected_vertical_eq, List.append_assoc _ (verticalSetup ..)]
  exact complete_startScroll_quiet hquiet _ .vertical

/-! ### The vertical scroll as a diagonal one (R86, R205) -/

theorem low8_i32Nat (n : Nat) : low8 (i32Nat n) = low8Nat n := BitVec.setWidth_ofNat_of_le (by decide) n

theorem pageRangeOk_wholeDisplay (d : Dims) : pageRangeOk d (0 : I32).toInt (lastPage d).toInt = true := by
  cases d <;> rfl

theorem vOffsetOk_verticalOffset (d : Dims) (vdir : VDir) :
    vOffsetOk d (i32Nat (verticalOffset d vdir)).toInt = true := by
  cases d <;> cases vdir <;> rfl

/-- The diagonal scroll that R86 fills in passes both checks, so the open parameter does not matter. -/
theorem exec_defaultDiagonal_left (s : State) (vdir : VDir) (freq : Freq) :
    exec (defaultDiagonal s.cfg.dims .left vdir freq) s =
      complete (startScroll (verticalSetup s.cfg.dims vdir freq) .diagonal s) := by
  have hoffset := vOffsetOk_verticalOffset s.cfg.dims vdir
  have hpages : (pageRangeOk s.cfg.dims (0 : I32).toInt (lastPage s.cfg.dims).toInt
      || !Config.diagChecksPageRange) = true := by rw [pageRangeOk_wholeDisplay, Bool.true_or]
  rw [verticalSetup, ← low8_i32Nat, ← low8_i32Nat, ← low8_i32Nat]
  exact (if_pos hoffset).trans (if_pos hpages)

/-- A scroll start notes its mode last, and sends the same frames whatever it is. -/
theorem startScroll_withScroll (setup : List Event) (m m' : ScrollMode) (s : State) :
    (startScroll setup m s).withScroll m' = startScroll setup m' s := rfl

theorem addResult_withScroll (s : State) (h : HostId) (r : OpResult) (m : ScrollMode) :
    (s.addResult h r).withScroll m = (s.withScroll m).addResult h r := rfl

theorem complete_startScroll (setup : List Event) (m : ScrollMode) (s : State) :
    complete (startScroll setup m s) = .next ((startScroll setup m s).addResult s.host .ok) := by
  rw [complete, startScroll_host]

/-- Settles O49: the specialisation is the diagonal scroll of R86, and the two starts differ in the mode they note. -/
theorem verticalIsADiagonalSpecialisation : Obligations.VerticalIsADiagonalSpecialisation := by
  intro s vdir freq
  refine ⟨_, complete_startScroll (verticalSetup s.cfg.dims vdir freq) .vertical s, ?_⟩
  rw [addResult_withScroll, startScroll_withScroll, ← complete_startScroll, ← exec_defaultDiagonal_left]
  cases vdir <;> rfl

end Sys2Proof.Machine
end

section
/-! A SET_CONTRAST factor that is no rational spells no operation (spec/44_contrast_invert.md R220;
spec/60_exceptions.md R243). -/

namespace Sys2Proof

theorem takeFactor_of_not_rational {f : FactorSlot} (h : f ∈ [.nan, .posInfinity, .negInfinity]) (r : List Slot) :
    takeFactor (.factor f :: r) = .error .factorNotFinite := by
  cases f with
  | ratio q => simp at h
  | nan | posInfinity | negInfinity => rfl

theorem decodeTag_setContrast_of_not_rational {f : FactorSlot} (h : f ∈ [.nan, .posInfinity, .negInfinity])
    (r : List Slot) : decodeTag 0x07 (.factor f :: r) = .error .factorNotFinite := by
  change decodeSetContrast (.factor f :: r) = _
  rw [decodeSetContrast, takeFactor_of_not_rational h]
  rfl

namespace Machine

/-- Settles O8: the factor does not decode, and a step refuses what does not decode. -/
theorem factorThatIsNoRationalIsRefused : Obligations.FactorThatIsNoRationalIsRefused :=
  fun _ _ _ _ hin hport hwords hf =>
    step_of_undecoded_host hin hport hwords (decodeTag_setContrast_of_not_rational hf [])

end Machine
end Sys2Proof
end

section
/-! SET_CONTRAST in a quiet state: the contrast byte of a factor, and the frames it sends
(spec/44_contrast_invert.md R220 to R222). -/

namespace Sys2Proof.Machine

theorem clampFactor_mem_unit (q : Rat) : 0 ≤ clampFactor q ∧ clampFactor q ≤ 1 :=
  ⟨le_min (le_max_right q 0) zero_le_one, min_le_right _ _⟩

/-- R222: a clamped factor rounds to 0..255, so the byte holds the rounded product itself. -/
theorem toNat_contrastByte {fc : Rat} (h0 : 0 ≤ fc) (h1 : fc ≤ 1) :
    ((contrastByte fc).toNat : Int) = (fc * 255 + 1 / 2).floor := by
  have hlower : 0 ≤ (fc * 255 + 1 / 2).floor := Rat.le_floor_iff.mpr (by push_cast; linarith)
  have hupper : (fc * 255 + 1 / 2).floor < 256 := Rat.floor_lt_iff.mpr (by push_cast; linarith)
  rw [contrastByte, BitVec.toNat_ofInt]
  omega

theorem setContrastBody_quiet {s : State} (h : s.Quiet) (q : Rat) :
    setContrastBody q s = (s.withContrast (contrastByte (clampFactor q))).emitted
      (clampReports q ++ [.cmd [0x81, contrastByte (clampFactor q)]]) := by
  have hquiet : ((s.withContrast (contrastByte (clampFactor q))).emitted (clampReports q)).Quiet :=
    quiet_congr rfl rfl h
  rw [setContrastBody, emitAll_eq_emitted h, withContrast_emitted, emit_eq_emitted hquiet, emitted_append]
  rfl

theorem exec_setContrast_quiet {s : State} (h : s.Quiet) (q : Rat) :
    exec (.setContrast q) s = .next ((s.withContrast (contrastByte (clampFactor q))).emittedOk
      (clampReports q ++ [.cmd [0x81, contrastByte (clampFactor q)]])) := by
  rw [← complete_emitted, ← setContrastBody_quiet h]
  rfl

/-- Settles O43: the byte is that of the clamped factor, and the report is there when clamping changed the factor. -/
theorem setContrastClampsRoundsAndSends : Obligations.SetContrastClampsRoundsAndSends := by
  intro s q hquiet
  obtain ⟨h0, h1⟩ := clampFactor_mem_unit q
  refine ⟨contrastByte (clampFactor q), ?_, ?_⟩
  · rw [← clampFactor_eq_ite]
    exact toNat_contrastByte h0 h1
  · rw [← clampReports_eq_expected]
    exact exec_setContrast_quiet hquiet q

end Sys2Proof.Machine
end

section
/-! DIM 1; DIM 0 in a quiet state (spec/44_contrast_invert.md R226). -/

namespace Sys2Proof.Machine

theorem quiet_emittedOk {s : State} (h : s.Quiet) (es : List Event) : (s.emittedOk es).Quiet := quiet_congr rfl rfl h

theorem emittedOk_emittedOk_out (s : State) (es es' : List Event) :
    ((s.emittedOk es).emittedOk es').out = (s.emittedOk (es ++ es')).out := by
  change (s.out ++ traceFrom s.draws es) ++ traceFrom (s.draws + drawsIn es) es' =
    s.out ++ traceFrom s.draws (es ++ es')
  rw [traceFrom_append, List.append_assoc]

theorem commandsOf_emittedOk (s : State) (es : List Event) :
    commandsOf (s.emittedOk es).out = commandsOf s.out ++ commandsOf es := by
  have hout : (s.emittedOk es).out = s.out ++ traceFrom s.draws es := rfl
  rw [hout, commandsOf_append, commandsOf_traceFrom]

/-- The state after DIM 1; DIM 0 (R224): DIM 1 leaves the stored contrast, and DIM 0 sends it. -/
def afterDimRoundTrip (s : State) : State :=
  (s.emittedOk [.cmd [0x81, 0x00]]).emittedOk [.cmd [0x81, s.storedContrast]]

theorem exec_dimRoundTrip_quiet {s : State} (h : s.Quiet) :
    exec (.dim true) s = .next (s.emittedOk [.cmd [0x81, 0x00]])
      ∧ exec (.dim false) (s.emittedOk [.cmd [0x81, 0x00]]) = .next (afterDimRoundTrip s) := by
  obtain ⟨hon, -⟩ := dimAndInvertSendOneFrame s h
  obtain ⟨-, hoff, -⟩ := dimAndInvertSendOneFrame _ (quiet_emittedOk h [.cmd [0x81, 0x00]])
  exact ⟨hon, hoff⟩

theorem samePicture_afterDimRoundTrip (s : State) : SamePicture s (afterDimRoundTrip s) :=
  ⟨rfl, rfl, rfl, rfl, rfl, rfl, rfl⟩

theorem commandsOf_drop_afterDimRoundTrip (s : State) :
    commandsOf ((afterDimRoundTrip s).out.drop s.out.length) = [[0x81, 0x00], [0x81, s.storedContrast]] := by
  rw [afterDimRoundTrip, emittedOk_emittedOk_out, commandsOf_drop_emittedOk]
  rfl

theorem getLast?_commandsOf_afterDimRoundTrip (s : State) :
    (commandsOf (afterDimRoundTrip s).out).getLast? = some [0x81, s.storedContrast] := by
  rw [afterDimRoundTrip, commandsOf_emittedOk]
  exact List.getLast?_concat

/-- Settles O45: both laws are the round trip, from `s` and from the quiet state after SET_CONTRAST. -/
theorem dimRoundTripRestoresTheContrast : Obligations.DimRoundTripRestoresTheContrast := by
  intro s q hquiet
  constructor
  · obtain ⟨hon, hoff⟩ := exec_dimRoundTrip_quiet hquiet
    exact ⟨_, _, hon, hoff, samePicture_afterDimRoundTrip s, commandsOf_drop_afterDimRoundTrip s⟩
  · have hquiet' : (s.withContrast (contrastByte (clampFactor q))).Quiet := quiet_congr rfl rfl hquiet
    obtain ⟨hon, hoff⟩ := exec_dimRoundTrip_quiet (quiet_emittedOk hquiet' _)
    exact ⟨_, _, _, exec_setContrast_quiet hquiet q, hon, hoff, (samePicture_afterDimRoundTrip _).storedContrast,
      getLast?_commandsOf_afterDimRoundTrip _⟩

end Sys2Proof.Machine
end

section
/-! What follows STOP's last frame, whatever other hosts have waiting (spec/45_shutdown.md R231). -/

namespace Sys2Proof.Machine

theorem commandsOf_expected_report (n : Nat) (e : Event) : commandsOf (Expected.report n e) = [] := by
  cases e with
  | cmd | data | wait =>
    rw [Expected.report]
    split <;> rfl
  | pin | report => rfl

/-- The last command of a trace that ends with a command frame and its report. -/
theorem getLast?_commandsOf_cmd_report (es : List Event) (n : Nat) (bs : List Byte) :
    (commandsOf (es ++ .cmd bs :: Expected.report n (.cmd bs))).getLast? = some bs := by
  have hlast : commandsOf (.cmd bs :: Expected.report n (.cmd bs)) = [bs] :=
    congrArg (bs :: ·) (commandsOf_expected_report n (.cmd bs))
  rw [commandsOf_append, hlast, List.getLast?_concat]

/-- An emission puts its event last: other hosts' frames come at the boundary before it (R60). -/
theorem emit_out_ends (e : Event) (s : State) : ∃ es n, (emit e s).out = es ++ e :: Expected.report n e :=
  ⟨(busBoundary s).out, (busBoundary s).draws, by rw [emit_out, drawnReport_eq_expected]⟩

theorem exec_stop_eq_next (s : State) :
    exec .stop s = .next ((stopBody s).addResult (stopBody s).host .ok) := rfl

/-- Settles O52: STOP has no check, its last act is the emission of AE, and the result it notes adds no event. -/
theorem stopEndsWithDisplayOff : Obligations.StopEndsWithDisplayOff := by
  intro s
  obtain ⟨es, n, hout⟩ : ∃ es n, (stopBody s).out = es ++ .cmd [0xAE] :: Expected.report n (.cmd [0xAE]) :=
    emit_out_ends ..
  refine ⟨_, es, n, exec_stop_eq_next s, hout, ?_⟩
  rw [State.addResult_out, hout, getLast?_commandsOf_cmd_report]

end Sys2Proof.Machine
end

section
/-! A frame that failed and a wait that was interrupted are reported at once (spec/60_exceptions.md R246, R251, R252). -/

namespace Sys2Proof.Machine

theorem runIntruder_out (w : Intruder) (s : State) :
    (runIntruder w s).out = s.out ++ .cmd (invertFrame w.on) :: drawnReport s.draws (.cmd (invertFrame w.on)) := rfl

/-- What a frame boundary adds to the trace is nothing, or begins with the command frame of the first INVERT that ran
(R60). -/
theorem frameBoundary_out_starts_with_cmd (n : Nat) (s : State) :
    ∃ es, (frameBoundary n s).out = s.out ++ es ∧ (es = [] ∨ ∃ bs rest, es = .cmd bs :: rest) := by
  have hnothing : ∃ es, s.out = s.out ++ es ∧ (es = [] ∨ ∃ bs rest, es = .cmd bs :: rest) :=
    ⟨[], (List.append_nil _).symm, .inl rfl⟩
  cases n with
  | zero => exact hnothing
  | succ n =>
    simp only [frameBoundary]
    split
    case isTrue => exact hnothing
    case isFalse =>
      split
      case h_1 => exact hnothing
      case h_2 w _ =>
        obtain ⟨rest, hrest⟩ := frameBoundary_out n (runIntruder w (s.takeDraws 1))
        rw [runIntruder_out, List.append_assoc] at hrest
        exact ⟨_, hrest, .inr ⟨_, _, rfl⟩⟩

/-- Settles O56: an emission is a frame boundary, then the event, then the report of its draw. -/
theorem failedFrameIsReportedAtOnce : Obligations.FailedFrameIsReportedAtOnce := fun s e =>
  ⟨by rw [emit_out, drawnReport_eq_expected], busBoundary_quiet, frameBoundary_out_starts_with_cmd _ s⟩

end Sys2Proof.Machine
end

section
/-! Two hosts and one picture: which requests are accepted (spec/60_exceptions.md R258, R259). -/

namespace Sys2Proof.Machine

/-- Of the host operations, INVERT alone touches neither raster, dbuf nor storedContrast (R258). -/
theorem touchesPicture_of_host {i : Instr} (hport : i.port = .host) (hinvert : ∀ on, i ≠ .invert on) :
    touchesPicture i = true := by
  cases i with
  | begin | clear | sync | setPixel | drawImage | drawText | setContrast | dim | scrollHorizontal | scrollVertical
  | scrollDiagonal | stopScroll | stop => rfl
  | invert on => exact absurd rfl (hinvert on)
  | _ => cases hport

theorem unordered_of_other_owner {i : Instr} {r : Request} {s : State} {h : HostId} (htouches : touchesPicture i = true)
    (howner : s.owner = some h) (hother : h ≠ r.host) (hordered : r.ordered = false) : unordered i r s = true := by
  simp [unordered, htouches, howner, hother, hordered]

/-- With a request that decodes but is unordered at the head of the input, a step refuses the run (R259). -/
theorem step_of_unordered {s : State} {r : Request} {rest : List Request} {i : Instr} (hin : s.input = r :: rest)
    (hdecode : decode r.port r.words = .ok i) (hunordered : unordered i r s = true) :
    step s = .refused .unorderedHosts := by
  have hinstr : r.instr = .ok i := hdecode
  simp [step, hin, hinstr, hunordered]

/-- Settles O9: every host operation but INVERT touches the picture, and an INVERT is accepted and completes. -/
theorem unorderedHostsAreRefused : Obligations.UnorderedHostsAreRefused := by
  intro s r rest i h hin hdecode howner hother hordered
  refine ⟨fun hport hinvert => ?_, ?_⟩
  · obtain ⟨-, hip⟩ := decode_wellFormedOn r.port r.words i hdecode
    have htouches := touchesPicture_of_host (hip.trans hport) hinvert
    exact step_of_unordered hin hdecode (unordered_of_other_owner htouches howner hother hordered)
  · rintro ⟨on, rfl⟩
    rw [step_of_decoded hin hdecode rfl]
    exact nofun

end Sys2Proof.Machine
end

section
/-! What an operation that ends in an error leaves (spec/60_exceptions.md R240 to R242, R248). -/

namespace Sys2Proof.Machine

theorem exec_of_error {i : Instr} {s : State} {e : OpError} (hi : isCommand i = false)
    (hv : opVerdict s.cfg.dims i = .error e) : exec i s = .next (Expected.failed e s) := by
  rw [exec_of_host hi, hv]
  rfl

/-- An instruction that appends an error is a host operation whose checks gave that error (R248). -/
theorem exec_error_cases {i : Instr} {s t : State} {e : OpError} (h : exec i s = .next t)
    (hresults : t.results = s.results ++ [⟨s.host, .error e⟩]) :
    isCommand i = false ∧ opVerdict s.cfg.dims i = .error e ∧ t = Expected.failed e s := by
  obtain ⟨-, bs, rfl⟩ | ⟨hi, e', hv, rfl⟩ | ⟨-, -, rfl⟩ := exec_next_cases h
  · simp at hresults
  · obtain rfl : e' = e := by simpa using hresults
    exact ⟨hi, hv, rfl⟩
  · exact absurd hresults (append_ok_ne_append_error _ _ _ _ _)

/-- No request is dropped from the first one that the host issued on its own (R240). -/
theorem dropChained_of_own_request (h : HostId) {after : List Request}
    (hafter : after = [] ∨ ∃ r rest, after = r :: rest ∧ r.host = h ∧ r.chained = false) :
    dropChained h after = after := by
  obtain rfl | ⟨r, rest, rfl, hhost, hchained⟩ := hafter
  · rfl
  · simp [dropChained, hhost, hchained]

/-- Before that one, every request of the host is dropped and every other one stays, in its order. -/
theorem dropChained_append (h : HostId) {before : List Request} (after : List Request)
    (hbefore : ∀ r ∈ before, r.host = h → r.chained = true) :
    dropChained h (before ++ after) = before.filter (fun r => decide (r.host ≠ h)) ++ dropChained h after := by
  induction before with
  | nil => rfl
  | cons r rest ih =>
    obtain ⟨hr, hrest⟩ := List.forall_mem_cons.mp hbefore
    by_cases hhost : r.host = h
    · simp [dropChained, hhost, hr hhost, ih hrest]
    · simp [dropChained, hhost, ih hrest]

/-- Settles O18: the state after an error is `Expected.failed`, and `dropChained` says which requests go. -/
theorem errorChangesNothing : Obligations.ErrorChangesNothing := by
  intro i s t e h hresults
  obtain ⟨-, -, rfl⟩ := exec_error_cases h hresults
  refine ⟨⟨rfl, rfl, rfl, rfl, rfl, rfl, rfl⟩, rfl, rfl, rfl, fun before after hinput hbefore hafter => ?_⟩
  calc dropChained s.host s.input = dropChained s.host (before ++ after) := by rw [hinput]
    _ = before.filter (fun r => decide (r.host ≠ s.host)) ++ dropChained s.host after :=
      dropChained_append s.host after hbefore
    _ = before.filter (fun r => decide (r.host ≠ s.host)) ++ after := by rw [dropChained_of_own_request _ hafter]

/-- Settles O19: the checks of an operation read its operands and the display's size alone. -/
theorem errorRepeatsOnTheSameArguments : Obligations.ErrorRepeatsOnTheSameArguments := by
  intro i s s' t e hcfg h hresults
  obtain ⟨hi, hv, -⟩ := exec_error_cases h hresults
  exact ⟨Expected.failed e s', exec_of_error hi (hcfg ▸ hv), rfl⟩

/-- An operation whose checks pass ends with `Ok`, returned to the running host (R240, R255). -/
theorem exec_of_pass {i : Instr} {s : State} (hi : isCommand i = false) (hv : opVerdict s.cfg.dims i = .pass) :
    exec i s = .next ((opBody i s).addResult s.host .ok) := by
  rw [exec_of_host hi, hv, ← (OnlyExtends.opBody i s).host]
  rfl

/-- Settles O20: the nine operations have no check. -/
theorem operationsThatRaiseNoError : Obligations.OperationsThatRaiseNoError := by
  refine ⟨fun _ _ _ _ => rfl, fun _ _ => rfl, fun _ _ => rfl, fun _ => rfl, fun s q on v f i hi => ?_⟩
  obtain ⟨hhost, hpass⟩ : isCommand i = false ∧ opVerdict s.cfg.dims i = .pass := by
    simp only [List.mem_cons, List.not_mem_nil, or_false] at hi
    rcases hi with rfl | rfl | rfl | rfl | rfl | rfl | rfl | rfl | rfl <;> exact ⟨rfl, rfl⟩
  exact ⟨_, exec_of_pass hhost hpass, List.getLast?_concat⟩

end Sys2Proof.Machine
end

section
/-! The picture that an instruction leaves is a function of the picture it finds: neither the draws nor other hosts'
frames reach it (spec/60_exceptions.md R251, R252). -/

namespace Sys2Proof.Machine

theorem SamePicture.symm {s t : State} (h : SamePicture s t) : SamePicture t s :=
  ⟨h.cfg.symm, h.storedContrast.symm, h.raster.symm, h.dbuf.symm, h.ghostScroll.symm, h.ghostBegun.symm,
    h.pixelPending.symm⟩

theorem SamePicture.trans {s t u : State} (h : SamePicture s t) (h' : SamePicture t u) : SamePicture s u :=
  ⟨h'.cfg.trans h.cfg, h'.storedContrast.trans h.storedContrast, h'.raster.trans h.raster, h'.dbuf.trans h.dbuf,
    h'.ghostScroll.trans h.ghostScroll, h'.ghostBegun.trans h.ghostBegun, h'.pixelPending.trans h.pixelPending⟩

theorem samePicture_emitAll (es : List Event) (s : State) : SamePicture s (emitAll es s) := by
  constructor <;> simp

section
variable {s t : State} (h : SamePicture s t)
include h

theorem SamePicture.pixel_congr : t.pixel = s.pixel := by
  funext x y
  rw [State.pixel, State.pixel, h.cfg, h.raster]

theorem SamePicture.bufferByte_congr : t.bufferByte = s.bufferByte := by
  funext i
  rw [State.bufferByte, State.bufferByte, h.dbuf]

theorem SamePicture.withContrast_congr (c : Byte) : SamePicture (s.withContrast c) (t.withContrast c) :=
  { h with storedContrast := rfl }

theorem SamePicture.withScroll_congr (m : ScrollMode) : SamePicture (s.withScroll m) (t.withScroll m) :=
  { h with ghostScroll := rfl }

theorem SamePicture.withBegun_congr (b : Bool) : SamePicture (s.withBegun b) (t.withBegun b) :=
  { h with ghostBegun := rfl }

theorem SamePicture.mapRaster_congr (g : Nat → Nat → Bool → Bool) : SamePicture (s.mapRaster g) (t.mapRaster g) :=
  { h with raster := by rw [State.mapRaster_raster, State.mapRaster_raster, h.cfg, h.raster] }

theorem SamePicture.packBuffer_congr : SamePicture (packBuffer s) (packBuffer t) :=
  { h with
    dbuf := by rw [packBuffer_dbuf, packBuffer_dbuf, h.cfg, h.pixel_congr, h.dbuf]
    pixelPending := rfl }

/-- An emission leaves the picture, whatever its event and its draws. -/
theorem SamePicture.emit_congr (e e' : Event) : SamePicture (emit e s) (emit e' t) :=
  (samePicture_emit e s).symm.trans (h.trans (samePicture_emit e' t))

theorem SamePicture.emitAll_congr (es es' : List Event) : SamePicture (emitAll es s) (emitAll es' t) :=
  (samePicture_emitAll es s).symm.trans (h.trans (samePicture_emitAll es' t))

theorem SamePicture.syncBody_congr : SamePicture (syncBody s) (syncBody t) := h.packBuffer_congr.emitAll_congr _ _

theorem SamePicture.clearBody_congr : SamePicture (clearBody s) (clearBody t) := h.mapRaster_congr _

/-! ### The operations -/

theorem SamePicture.initSequence_congr : SamePicture (initSequence s) (initSequence t) := by
  have hcontrast : initContrast t.cfg.vcc = initContrast s.cfg.vcc := by rw [h.cfg]
  rw [initSequence, initSequence, hcontrast]
  exact (((h.emitAll_congr _ _).emitAll_congr _ _).withContrast_congr _).emitAll_congr _ _

theorem SamePicture.beginBody_congr : SamePicture (beginBody s) (beginBody t) :=
  h.initSequence_congr.clearBody_congr.syncBody_congr.withBegun_congr true

theorem SamePicture.setPixelBody_congr (on : Bool) (x y : Nat) :
    SamePicture (setPixelBody on x y s) (setPixelBody on x y t) := by
  have hdbuf : (setPixelBody on x y t).dbuf = (setPixelBody on x y s).dbuf := by
    simp only [setPixelBody, State.withPixelPending_dbuf, State.withBuffer_dbuf, h.cfg, h.dbuf, h.bufferByte_congr]
  exact { h with dbuf := hdbuf, pixelPending := rfl }

theorem SamePicture.rectBody_congr (ov : Overlay) (img : Image) (x0 y0 x1 y1 : Int) :
    SamePicture (rectBody ov img x0 y0 x1 y1 s) (rectBody ov img x0 y0 x1 y1 t) := by
  unfold rectBody
  split
  · exact h
  · exact h.mapRaster_congr _

theorem SamePicture.setContrastBody_congr (q : Rat) : SamePicture (setContrastBody q s) (setContrastBody q t) :=
  ((h.emitAll_congr _ _).withContrast_congr _).emit_congr _ _

theorem SamePicture.scrollPrologue_congr : SamePicture (scrollPrologue s) (scrollPrologue t) :=
  (h.emit_congr _ _).syncBody_congr

theorem SamePicture.startScroll_congr (setup setup' : List Event) (m : ScrollMode) :
    SamePicture (startScroll setup m s) (startScroll setup' m t) :=
  (h.scrollPrologue_congr.emitAll_congr _ _).withScroll_congr m

theorem SamePicture.stopScrollBody_congr : SamePicture (stopScrollBody s) (stopScrollBody t) :=
  h.scrollPrologue_congr.withScroll_congr .inactive

theorem SamePicture.stopBody_congr : SamePicture (stopBody s) (stopBody t) :=
  (((h.stopScrollBody_congr.emit_congr _ _).emit_congr _ _).clearBody_congr.syncBody_congr).emit_congr _ _

theorem SamePicture.opBody_congr (i : Instr) : SamePicture (opBody i s) (opBody i t) := by
  cases i with
  | begin => exact h.beginBody_congr
  | clear => exact h.clearBody_congr
  | sync => exact h.syncBody_congr
  | setPixel => exact h.setPixelBody_congr ..
  | drawImage | drawText => exact h.rectBody_congr ..
  | setContrast q => exact h.setContrastBody_congr q
  | dim | invert => exact h.emit_congr _ _
  | scrollHorizontal | scrollVertical | scrollDiagonal => exact h.startScroll_congr ..
  | stopScroll => exact h.stopScrollBody_congr
  | stop => exact h.stopBody_congr
  | _ => exact h

/-- An instruction answers a next state from every state of the same picture, and leaves the same picture there. -/
theorem SamePicture.exec_congr {i : Instr} {u : State} (he : exec i s = .next u) :
    ∃ v, exec i t = .next v ∧ SamePicture u v := by
  obtain ⟨hi, bs, rfl⟩ | ⟨hi, e, hv, rfl⟩ | ⟨hi, hv, rfl⟩ := exec_next_cases he
  · obtain ⟨bs', ht⟩ := exec_of_command hi t
    exact ⟨t.withEncoded bs', ht, { h with }⟩
  · exact ⟨Expected.failed e t, exec_of_error hi (h.cfg ▸ hv), { h with }⟩
  · exact ⟨_, exec_of_pass hi (h.cfg ▸ hv), { h.opBody_congr i with }⟩

end

/-- Settles O21: another draw counter is the same picture. -/
theorem pictureDoesNotDependOnTheDraws : Obligations.PictureDoesNotDependOnTheDraws := by
  intro i s t n h
  have hsame : SamePicture s { s with draws := n } := ⟨rfl, rfl, rfl, rfl, rfl, rfl, rfl⟩
  exact hsame.exec_congr h

end Sys2Proof.Machine
end

section
/-! The block at construction (spec/10_state.md R39), and CLEAR (spec/40_framebuffer.md R110). -/

namespace Sys2Proof.Machine

/-- Settles O11: the values are those that `State.construct` writes out, and an empty memory reads as zero. -/
theorem constructionLeavesTheTableValues : Obligations.ConstructionLeavesTheTableValues := fun _ =>
  ⟨rfl, rfl, fun _ _ => rfl, fun _ => rfl, rfl, rfl, rfl⟩

/-- Both memories and the trace are empty. -/
theorem inv_construct (c : Cfg) : (State.construct c).Inv := ⟨rfl, rfl, rfl, rfl, rfl⟩

/-- Settles O13: reset is a construction. -/
theorem constructedBlockMeetsTheInvariant : Obligations.ConstructedBlockMeetsTheInvariant :=
  ⟨inv_construct, inv_construct _⟩

/-- Settles O26: CLEAR is `clearBody`, which writes the raster alone. -/
theorem clearTurnsEveryPixelOff : Obligations.ClearTurnsEveryPixelOff := by
  intro s
  rw [expected_geometry_eq]
  exact ⟨(clearBody s).raster, rfl, fun _ _ hx hy => pixel_clearBody s hx hy⟩

end Sys2Proof.Machine
end

section
/-! BEGIN from every state, whatever other hosts have waiting (spec/42_command_encoder.md R177). -/

namespace Sys2Proof.Machine

@[simp] theorem initSequence_cfg (s : State) : (initSequence s).cfg = s.cfg := (OnlyExtends.initSequence s).cfg

@[simp] theorem beginBody_cfg (s : State) : (beginBody s).cfg = s.cfg := (OnlyExtends.beginBody s).cfg

@[simp] theorem beginBody_storedContrast (s : State) : (beginBody s).storedContrast = initContrast s.cfg.vcc := by
  simp [beginBody, initSequence]

@[simp] theorem beginBody_ghostBegun (s : State) : (beginBody s).ghostBegun = true := rfl

theorem pixel_syncBody (s : State) : (syncBody s).pixel = s.pixel := by
  funext x y
  rw [State.pixel, syncBody_raster, syncBody_cfg, State.pixel]

@[simp] theorem State.withBegun_pixel (s : State) (b : Bool) : (s.withBegun b).pixel = s.pixel := rfl

@[simp] theorem State.withBegun_bufferByte (s : State) (b : Bool) : (s.withBegun b).bufferByte = s.bufferByte := rfl

@[simp] theorem State.addResult_pixel (s : State) (h : HostId) (r : OpResult) : (s.addResult h r).pixel = s.pixel := rfl

@[simp] theorem State.addResult_bufferByte (s : State) (h : HostId) (r : OpResult) :
    (s.addResult h r).bufferByte = s.bufferByte := rfl

theorem pixel_beginBody (s : State) {x y : Nat} (hx : x < width s.cfg.dims) (hy : y < height s.cfg.dims) :
    (beginBody s).pixel x y = false := by
  rw [← initSequence_cfg] at hx hy
  rw [beginBody, State.withBegun_pixel, pixel_syncBody, pixel_clearBody _ hx hy]

/-- SyncBody of a cleared raster leaves zero bytes (R120). -/
theorem bufferByte_syncBody_clearBody (s : State) {i : Nat} (hi : i < bufferSize s.cfg.dims) :
    (syncBody (clearBody s)).bufferByte i = 0 := by
  rw [bufferByte_syncBody, clearBody_cfg, if_pos hi, packByte_clearBody s hi]

theorem bufferByte_beginBody (s : State) {i : Nat} (hi : i < bufferSize s.cfg.dims) :
    (beginBody s).bufferByte i = 0 := by
  rw [← initSequence_cfg] at hi
  rw [beginBody, State.withBegun_bufferByte, bufferByte_syncBody_clearBody _ hi]

theorem exec_begin_eq_next (s : State) : exec .begin s = .next ((beginBody s).addResult s.host .ok) :=
  exec_of_pass (i := .begin) rfl rfl

/-- Settles O40: BEGIN has no check, and other hosts' frames leave what its body writes. -/
theorem beginInitialisesTheState : Obligations.BeginInitialisesTheState := by
  intro s
  refine ⟨_, exec_begin_eq_next s, ?_, fun x y hx hy => ?_, fun i hi => ?_, ?_, ?_, ?_⟩
  · rw [State.addResult_storedContrast, beginBody_storedContrast]
    rfl
  · rw [State.addResult_pixel, pixel_beginBody s hx hy]
  · rw [State.addResult_bufferByte, bufferByte_beginBody s hi]
  · rw [State.addResult_ghostBegun, beginBody_ghostBegun]
  · rw [State.addResult_ghostScroll, beginBody_ghostScroll]
  · rw [State.addResult_cfg, beginBody_cfg]

end Sys2Proof.Machine
end

section
/-! STOP_SCROLL and STOP in a quiet state (spec/43_scroll.md R206; spec/45_shutdown.md R230). -/

namespace Sys2Proof.Machine

theorem stopScrollBody_quiet {s : State} (h : s.Quiet) :
    stopScrollBody s = ((Expected.packed s).withScroll .inactive).emitted ([.cmd [0x2E]] ++ Expected.sync s) := by
  rw [stopScrollBody, scrollPrologue_quiet h, syncFrames_eq_expected, expected_packed_eq]
  rfl

/-- Settles O50: STOP_SCROLL has no check, and its body is the prologue of a scroll start. -/
theorem stopScrollDeactivatesAndSyncs : Obligations.StopScrollDeactivatesAndSyncs := by
  intro s hquiet
  rw [← complete_emitted, ← stopScrollBody_quiet hquiet]
  rfl

/-- One more event, in a quiet state. -/
theorem emit_emitted {s : State} (h : s.Quiet) (es : List Event) (e : Event) :
    emit e (s.emitted es) = s.emitted (es ++ [e]) := by
  rw [emit_eq_emitted (quiet_emitted h es), emitted_append]

/-- INVERT and DIM between STOP's two SyncBodies send the un-invert and the stored contrast (R230). -/
theorem dimBody_invertBody_emitted {s : State} (h : s.Quiet) (es : List Event) :
    dimBody false (invertBody false (s.emitted es)) =
      s.emitted (es ++ [.cmd [0xA6], .cmd [0x81, s.storedContrast]]) := by
  have hinvert : invertBody false (s.emitted es) = s.emitted (es ++ [.cmd [0xA6]]) := emit_emitted h es _
  have hdim := emit_emitted h (es ++ [.cmd [0xA6]]) (.cmd [0x81, s.storedContrast])
  rw [List.append_assoc] at hdim
  rw [hinvert]
  exact hdim

theorem quiet_blank {s : State} (h : s.Quiet) : (Expected.blank s).Quiet := quiet_congr rfl rfl h

/-- STOP's ten frames, of which the first data frame is the old raster (R230). -/
theorem stopBody_quiet {s : State} (h : s.Quiet) :
    stopBody s = (Expected.blank ((Expected.packed s).withScroll .inactive)).emitted (Expected.events s .stop) := by
  have hpacked : ((Expected.packed s).withScroll .inactive).Quiet := quiet_congr rfl rfl h
  rw [stopBody, stopScrollBody_quiet h, dimBody_invertBody_emitted hpacked, syncBody_clearBody_emitted hpacked,
    emit_emitted (quiet_blank hpacked)]
  rfl

/-- Settles O51: the run of STOP's body, and what clearing and packing leave. -/
theorem stopShutsDownInOrder : Obligations.StopShutsDownInOrder := by
  intro s hquiet
  refine ⟨?_, fun _ _ hx hy => pixel_clearBody s hx hy, fun i hi => ?_⟩
  · rw [exec_stop_eq_next, stopBody_quiet hquiet]
    rfl
  · exact (bufferByte_packBuffer _ i).trans ((if_pos hi).trans (packByte_clearBody (packBuffer s) hi))

end Sys2Proof.Machine
end

section
/-! What a run of events appends depends on the bus alone: the trace, the waiting requests, the running host and the
draws (spec/00_scope.md R16; spec/20_memory.md R60). -/

namespace Sys2Proof.Machine

/-- Two states in which an emission appends the same. -/
structure SameBus (s t : State) : Prop where
  out   : t.out = s.out
  input : t.input = s.input
  host  : t.host = s.host
  draws : t.draws = s.draws

section
variable {s t : State} (h : SameBus s t)
include h

theorem SameBus.intruders_congr : t.intruders = s.intruders := by
  rw [State.intruders, State.intruders, h.host, h.input]

theorem SameBus.pickIntruder_congr : pickIntruder t = pickIntruder s := by
  rw [pickIntruder, pickIntruder, h.draws, h.intruders_congr]

theorem SameBus.takeDraws_congr (k : Nat) : SameBus (s.takeDraws k) (t.takeDraws k) :=
  { h with draws := congrArg (· + k) h.draws }

theorem SameBus.emitOwn_congr (e : Event) : SameBus (emitOwn e s) (emitOwn e t) :=
  { h with
    out := by rw [emitOwn_out, emitOwn_out, h.out, h.draws]
    draws := congrArg (· + drawsOf e) h.draws }

theorem SameBus.withInput_congr (q : List Request) : SameBus (s.withInput q) (t.withInput q) :=
  { h with input := rfl }

theorem SameBus.runIntruder_congr (w : Intruder) : SameBus (runIntruder w s) (runIntruder w t) :=
  { (h.withInput_congr w.rest).emitOwn_congr (.cmd (invertFrame w.on)) with }

theorem SameBus.frameBoundary_congr (n : Nat) : SameBus (frameBoundary n s) (frameBoundary n t) := by
  induction n generalizing s t with
  | zero => exact h
  | succ n ih =>
    simp only [frameBoundary, h.intruders_congr, h.pickIntruder_congr]
    split
    · exact h
    · split
      · exact h.takeDraws_congr 1
      · exact ih ((h.takeDraws_congr 1).runIntruder_congr _)

theorem SameBus.emit_congr (e : Event) : SameBus (emit e s) (emit e t) := by
  rw [emit, emit, busBoundary, busBoundary, h.input]
  exact (h.frameBoundary_congr _).emitOwn_congr e

theorem SameBus.emitAll_congr (es : List Event) : SameBus (emitAll es s) (emitAll es t) := by
  induction es generalizing s t with
  | nil => exact h
  | cons e es ih => exact ih (h.emit_congr e)

/-- SyncBody sends the raster, so of the picture no more has to agree (R117). -/
theorem SameBus.syncBody_congr (hcfg : t.cfg = s.cfg) (hraster : t.raster = s.raster) :
    SameBus (syncBody s) (syncBody t) := by
  have hpacked : SameBus (packBuffer s) (packBuffer t) := { h with }
  rw [syncBody, syncBody, syncFrames_eq_expected, syncFrames_eq_expected, expected_sync_congr hcfg hraster]
  exact hpacked.emitAll_congr _

end

end Sys2Proof.Machine
end

section
/-! The hazard of a lost SET_PIXEL write (spec/70_reset_and_hazards.md R274, R280). -/

namespace Sys2Proof.Machine

/-! ### SET_PIXEL; SYNC -/

/-- Packing overwrites the whole buffer, so what dbuf held before does not matter (R117). -/
theorem packBuffer_dbuf_congr {s t : State} (hs : s.Inv) (ht : t.Inv) (hcfg : t.cfg = s.cfg)
    (hraster : t.raster = s.raster) : (packBuffer t).dbuf = (packBuffer s).dbuf := by
  obtain ⟨-, -, hwfs, hbelows, -⟩ := inv_packBuffer hs
  obtain ⟨-, -, hwft, hbelowt, -⟩ := inv_packBuffer ht
  refine Memory.ext_of_wf hwft hwfs fun i => ?_
  by_cases hi : i < bufferSize s.cfg.dims
  · have hpixel : t.pixel = s.pixel := by
      funext x y
      rw [State.pixel, State.pixel, hcfg, hraster]
    have hbytet := (bufferByte_packBuffer t i).trans (if_pos (hcfg ▸ hi))
    have hbytes := (bufferByte_packBuffer s i).trans (if_pos hi)
    rw [hcfg, hpixel] at hbytet
    exact hbytet.trans hbytes.symm
  · have hge := Nat.le_of_not_lt hi
    exact (Memory.read_of_below hbelowt (hcfg ▸ hge)).trans (Memory.read_of_below hbelows hge).symm

/-- SyncBody writes and sends the raster: what dbuf held is neither left nor sent. -/
theorem syncBody_dbuf_out_congr {s t : State} (hs : s.Inv) (ht : t.Inv) (hcfg : t.cfg = s.cfg)
    (hraster : t.raster = s.raster) (hbus : SameBus s t) :
    (syncBody t).dbuf = (syncBody s).dbuf ∧ (syncBody t).out = (syncBody s).out := by
  rw [syncBody_dbuf, syncBody_dbuf]
  exact ⟨packBuffer_dbuf_congr hs ht hcfg hraster, (hbus.syncBody_congr hcfg hraster).out⟩

/-! ### Every instruction -/

/-- No SET_PIXEL write waits, and dbuf is the packed raster: what a SyncBody leaves. -/
structure Packed (s : State) : Prop where
  pixelPending : s.pixelPending = false
  bufferByte   : ∀ j, j < bufferSize s.cfg.dims → s.bufferByte j = packByte s.cfg.dims s.pixel j

theorem packed_syncBody (s : State) : Packed (syncBody s) where
  pixelPending := syncBody_pixelPending s
  bufferByte j hj := by
    rw [syncBody_cfg] at hj
    rw [bufferByte_syncBody, if_pos hj, syncBody_cfg, pixel_syncBody]

theorem Packed.of_samePicture {s t : State} (h : Packed s) (hsame : SamePicture s t) : Packed t where
  pixelPending := hsame.pixelPending.trans h.pixelPending
  bufferByte := by
    rw [hsame.cfg, hsame.bufferByte_congr, hsame.pixel_congr]
    exact h.bufferByte

theorem Packed.withScroll {s : State} (h : Packed s) (m : ScrollMode) : Packed (s.withScroll m) := { h with }

theorem Packed.withBegun {s : State} (h : Packed s) (b : Bool) : Packed (s.withBegun b) := { h with }

theorem Packed.addResult {s : State} (h : Packed s) (k : HostId) (r : OpResult) : Packed (s.addResult k r) :=
  { h with }

/-- Whatever a body that performs SyncBody does after it, it only emits and writes the ghost state. -/
theorem packed_opBody {i : Instr} (h : performsSync i = true) (s : State) : Packed (opBody i s) := by
  cases i with
  | begin => exact (packed_syncBody (clearBody (initSequence s))).withBegun true
  | sync => exact packed_syncBody s
  | scrollHorizontal | scrollVertical | scrollDiagonal =>
    exact ((packed_syncBody _).of_samePicture (samePicture_emitAll _ _)).withScroll _
  | stopScroll => exact (packed_syncBody _).withScroll _
  | stop => exact (packed_syncBody _).of_samePicture (samePicture_emit _ _)
  | _ => cases h

/-- Of the operations that perform SyncBody, the scroll starts alone have checks (R200, R202, R204). -/
theorem pass_of_runsSync {i : Instr} {s : State} (h : runsSync i s = true) :
    isCommand i = false ∧ opVerdict s.cfg.dims i = .pass := by
  obtain ⟨hsync, hchecks⟩ := Bool.and_eq_true_iff.mp h
  cases i with
  | scrollHorizontal => exact ⟨rfl, if_pos hchecks⟩
  | scrollDiagonal =>
    obtain ⟨hoffset, hpages⟩ := Bool.and_eq_true_iff.mp hchecks
    exact ⟨rfl, (if_pos hoffset).trans (if_pos hpages)⟩
  | begin | sync | scrollVertical | stopScroll | stop => exact ⟨rfl, rfl⟩
  | _ => cases hsync

theorem packed_of_runsSync {i : Instr} {s t : State} (hsync : runsSync i s = true) (h : exec i s = .next t) :
    Packed t := by
  obtain ⟨hhost, hpass⟩ := pass_of_runsSync hsync
  obtain ⟨hperforms, -⟩ := Bool.and_eq_true_iff.mp hsync
  obtain rfl := Host.Outcome.next.inj ((exec_of_pass hhost hpass).symm.trans h)
  exact (packed_opBody hperforms s).addResult _ _

/-- Without a SyncBody a waiting write goes on waiting: SET_PIXEL leaves one itself, and no other instruction writes
the mark (log entry 29). -/
theorem pixelPending_of_not_runsSync {i : Instr} {s t : State} (hsync : runsSync i s = false)
    (h : exec i s = .next t) (hpending : s.pixelPending = true) : t.pixelPending = true := by
  by_cases hpixel : ∀ on x y, i ≠ .setPixel on x y
  · obtain ⟨-, -, -, -, -, hbuffer, -⟩ := frameOfEveryInstr i s t h
    obtain ⟨-, hmark⟩ := hbuffer hsync hpixel
    exact hmark.trans hpending
  · push Not at hpixel
    obtain ⟨on, x, y, rfl⟩ := hpixel
    obtain ⟨hcommand, -⟩ | ⟨-, e, -, rfl⟩ | ⟨-, -, rfl⟩ := exec_next_cases h
    · cases hcommand
    · exact hpending
    · rfl

/-- Settles O30: the SYNC packs over the write and sends the raster; and an instruction names the hazard exactly if it
performs its SyncBody while a write waits. -/
theorem setPixelIsLostAtSync : Obligations.SetPixelIsLostAtSync := by
  constructor
  · intro s on x y hinv hx0 hxW hy0 hyH
    have hin := (pixelInRange_iff ..).mpr ⟨hx0, hxW, hy0, hyH⟩
    have hsetPixel := exec_setPixel_of_inRange on hin
    obtain ⟨hdbuf, hout⟩ := syncBody_dbuf_out_congr hinv (exec_keeps_inv hinv hsetPixel) rfl rfl ⟨rfl, rfl, rfl, rfl⟩
    refine ⟨_, _, _, hsetPixel, rfl, rfl, hdbuf, hout, (pixelLost_mem_hazards ..).mpr ⟨rfl, rfl⟩, ?_⟩
    rw [pixelLost_mem_hazards, State.addResult_pixelPending, syncBody_pixelPending]
    exact fun ⟨_, hmark⟩ => Bool.false_ne_true hmark
  · intro i s t h
    rw [pixelLost_mem_hazards]
    cases hsync : runsSync i s
    case true =>
      obtain ⟨hmark, hbytes⟩ := packed_of_runsSync hsync h
      rw [exec_keeps_cfg h] at hbytes
      exact ⟨by simp [hmark], fun _ => hbytes, fun hpending hnot => absurd ⟨rfl, hpending⟩ hnot⟩
    case false =>
      obtain ⟨-, -, -, -, -, hbuffer, -⟩ := frameOfEveryInstr i s t h
      refine ⟨?_, fun ⟨hfalse, _⟩ => absurd hfalse Bool.false_ne_true, fun _ _ hpixel => (hbuffer hsync hpixel).1⟩
      simpa using pixelPending_of_not_runsSync hsync h

end Sys2Proof.Machine
end
